-- ==== Sys2Proof/Word.lean ====
section
/-! DEFINITION. The words of the block: bytes, 32-bit register and time values, byte strings
(00_scope.md R8, R9). -/

namespace Sys2Proof

/-- An unsigned 8-bit value (R8). -/
abbrev Byte := BitVec 8

/-- A register, header, operand or time value: 32 bits, unsigned (R7, R8). -/
abbrev Word := BitVec 32

/-- A byte string: a finite sequence of bytes, indexed from 0 (R8, R9). -/
abbrev Bytes := List Byte

end Sys2Proof
end

