-- ==== Sys2Proof/Config.lean ====
section
/-! DEFINITION. What an implementation of the block fixes and the spec leaves OPEN (00_scope.md R7,
92_eei_decisions.md section 2). -/

namespace Sys2Proof

/-- `PLATFORM_BASE` (R7, R77): where the command port sits in a larger system's address map. No rule
reads it, and nothing in the model does. Free: it has no body (entry 6). -/
opaque Config.platformBase : Nat

/-- One less than `RXBUF_CAP` (R7, D22) where the implementation's receive buffer is finite, `none` where it
is unbounded. Free: it has no body (entry 5). -/
opaque Config.capacityLessOne : Option Nat

/-- `RXBUF_CAP` (R7): a natural number of at least 1, or `none` for unbounded. Which one is OPEN, and every
such value is some value of the constant above. -/
def Config.resetCapacity : Option Nat := Config.capacityLessOne.map (· + 1)

/-- The largest number of operand bytes that the 16-bit field LEN can announce (R81, D23). -/
def Config.maxData : Nat := 65535

end Sys2Proof
end

