-- ==== Sys2Proof/Syntax.lean ====
section
/-! DEFINITION. The commands of the block, one constructor for each row of spec/opcode_table.json
(30_encoding.md R83), each with the operands its format gives it (R81, R82). -/

namespace Sys2Proof

/-- A decoded command with its operands. A register number is kept raw: the decoder does not check
it (R84). -/
inductive Instr where
  /-- CHK_COMPUTE D (R107). -/
  | chkCompute (d : Bytes)
  /-- CHK_VERIFY C, D (R108). -/
  | chkVerify (c : Byte) (d : Bytes)
  /-- SEND D, now (R126). -/
  | send (d : Bytes) (now : Word)
  /-- RX_PUSH D (R140). -/
  | rxPush (d : Bytes)
  /-- DEFRAME (R142). -/
  | deframe
  /-- TICK now (R177). -/
  | tick (now : Word)
  /-- REG_RD R (R200). -/
  | regRd (r : Byte)
  /-- REG_WR R, V (R201). -/
  | regWr (r : Byte) (v : Word)
  /-- SOFT_RESET (R208). -/
  | softReset
  deriving DecidableEq, Repr

end Sys2Proof
end

