-- ==== Sys2Proof/WellFormed.lean ====
section
/-! DEFINITION. Which commands the encoding can express: an operand byte string of at most 65535
bytes (30_encoding.md R81, 41_framer.md R129). -/

namespace Sys2Proof

/-- The operand byte string `D` of a command; empty for a format that carries none (R81, R82). -/
def Instr.data : Instr → Bytes
  | .chkCompute d => d
  | .chkVerify _ d => d
  | .send d _ => d
  | .rxPush d => d
  | .deframe => []
  | .tick _ => []
  | .regRd _ => []
  | .regWr _ _ => []
  | .softReset => []

/-- A command is well formed when LEN can hold the length of its byte string (R81). Every other
operand fills its field exactly. -/
def Instr.wellFormed (i : Instr) : Bool := decide (i.data.length ≤ Config.maxData)

end Sys2Proof
end

