-- ==== Sys2Proof/Decode.lean ====
section
/-! DEFINITION. Command encoding (30_encoding.md R80 to R92): the table of opcodes, the decoder of
the command port's bytes, total and rejecting by name, and the encoder. Words are carried most
significant byte first (20_memory.md R66; entry 1). -/

namespace Sys2Proof

/-- The rows of the opcode map (R83). -/
inductive Opcode where
  | chkCompute | chkVerify | send | rxPush | deframe | tick | regRd | regWr | softReset
  deriving DecidableEq, Repr

/-- The formats of R82. -/
inductive Format where
  | n | b | bv | bt | t | r | rw
  deriving DecidableEq, Repr

/-- Why a header is illegal: R85 or R86. -/
inductive DecodeError where
  /-- OPC is 0x00 or 0x0A to 0xFF (R85). -/
  | illegalOpcode
  /-- A must-be-zero bit of a legal opcode is set (R86). -/
  | mustBeZero
  deriving DecidableEq, Repr

/-- What the bytes on the command port amount to. -/
inductive Decoded where
  /-- A whole legal command and what follows it. -/
  | command (i : Instr) (rest : Bytes)
  /-- An illegal header, which is the whole command (R87), and what follows it. -/
  | illegal (why : DecodeError) (rest : Bytes)
  /-- The port does not yet hold the whole of the command. -/
  | incomplete
  deriving DecidableEq, Repr

/-! ### The opcode map -/

/-- The rows in the table's order (R83). -/
def opcodes : List Opcode :=
  [.chkCompute, .chkVerify, .send, .rxPush, .deframe, .tick, .regRd, .regWr, .softReset]

/-- The OPC column (R83). -/
def opcodeCode : Opcode → Byte
  | .chkCompute => 0x01
  | .chkVerify => 0x02
  | .send => 0x03
  | .rxPush => 0x04
  | .deframe => 0x05
  | .tick => 0x06
  | .regRd => 0x07
  | .regWr => 0x08
  | .softReset => 0x09

/-- The match column (R83). -/
def opcodePattern : Opcode → Word
  | .chkCompute => 0x01000000
  | .chkVerify => 0x02000000
  | .send => 0x03000000
  | .rxPush => 0x04000000
  | .deframe => 0x05000000
  | .tick => 0x06000000
  | .regRd => 0x07000000
  | .regWr => 0x08000000
  | .softReset => 0x09000000

/-- The mask column (R83). -/
def opcodeMask : Opcode → Word
  | .chkCompute => 0xFFFF0000
  | .chkVerify => 0xFF000000
  | .send => 0xFFFF0000
  | .rxPush => 0xFFFF0000
  | .deframe => 0xFFFFFFFF
  | .tick => 0xFFFFFFFF
  | .regRd => 0xFF00FFFF
  | .regWr => 0xFF00FFFF
  | .softReset => 0xFFFFFFFF

/-- The format column (R83). -/
def opcodeFormat : Opcode → Format
  | .chkCompute => .b
  | .chkVerify => .bv
  | .send => .bt
  | .rxPush => .b
  | .deframe => .n
  | .tick => .t
  | .regRd => .r
  | .regWr => .rw
  | .softReset => .n

/-- LEN operand bytes follow the header in formats B, BV and BT (R82). -/
def takesData : Format → Bool
  | .b => true
  | .bv => true
  | .bt => true
  | .n => false
  | .t => false
  | .r => false
  | .rw => false

/-- An operand word follows in formats BT, T and RW (R82). -/
def takesWord : Format → Bool
  | .bt => true
  | .t => true
  | .rw => true
  | .n => false
  | .b => false
  | .bv => false
  | .r => false

/-! ### Header fields and byte order -/

/-- OPC, bits [31:24] of the header (R80). -/
def headerOpc (h : Word) : Byte := h.extractLsb' 24 8

/-- The argument A, bits [23:16] of the header (R80). -/
def headerArg (h : Word) : Byte := h.extractLsb' 16 8

/-- LEN, bits [15:0] of the header, unsigned (R80, R84). -/
def headerLen (h : Word) : Nat := (h.extractLsb' 0 16).toNat

/-- A word from its four bytes, most significant first (R66). -/
def wordOfBytes (b3 b2 b1 b0 : Byte) : Word :=
  (b3.setWidth 32 <<< 24) ||| (b2.setWidth 32 <<< 16) ||| (b1.setWidth 32 <<< 8) ||| b0.setWidth 32

/-- The four bytes of a word, most significant first (R66). -/
def bytesOfWord (w : Word) : Bytes :=
  [w.extractLsb' 24 8, w.extractLsb' 16 8, w.extractLsb' 8 8, w.extractLsb' 0 8]

/-! ### The decoder -/

/-- The decoder of a header (R89). -/
def decodeHeader (h : Word) : Except DecodeError Opcode :=
  match opcodes.find? (fun op => opcodeCode op == headerOpc h) with
  | none => .error .illegalOpcode
  | some op => if h &&& opcodeMask op = opcodePattern op then .ok op else .error .mustBeZero

/-- How many operand bytes a legal header announces on the data port (R81). -/
def dataLength (op : Opcode) (h : Word) : Nat :=
  if takesData (opcodeFormat op) then headerLen h else 0

/-- The length in bytes of a legal command, from its header alone (R88). -/
def commandLength (op : Opcode) (h : Word) : Nat :=
  4 + dataLength op h + (if takesWord (opcodeFormat op) then 4 else 0)

/-- The command of a row with its argument, its bytes and its operand word (R82). -/
def assemble (op : Opcode) (a : Byte) (d : Bytes) (v : Word) : Instr :=
  match op with
  | .chkCompute => .chkCompute d
  | .chkVerify => .chkVerify a d
  | .send => .send d v
  | .rxPush => .rxPush d
  | .deframe => .deframe
  | .tick => .tick v
  | .regRd => .regRd a
  | .regWr => .regWr a v
  | .softReset => .softReset

/-- The operands after a legal header: first `D`, then `V` (R81). -/
def decodeOperands (op : Opcode) (h : Word) (bytes : Bytes) : Decoded :=
  let n := dataLength op h
  if n ≤ bytes.length then
    let d := bytes.take n
    if takesWord (opcodeFormat op) then
      match bytes.drop n with
      | b3 :: b2 :: b1 :: b0 :: rest =>
        .command (assemble op (headerArg h) d (wordOfBytes b3 b2 b1 b0)) rest
      | _ => .incomplete
    else .command (assemble op (headerArg h) d 0) (bytes.drop n)
  else .incomplete

/-- The decoder of the command port: a header, then its operands (R80, R81, R89). An illegal header
takes no operands (R87). -/
def decode (bytes : Bytes) : Decoded :=
  match bytes with
  | b3 :: b2 :: b1 :: b0 :: rest =>
    let h := wordOfBytes b3 b2 b1 b0
    match decodeHeader h with
    | .error why => .illegal why rest
    | .ok op => decodeOperands op h rest
  | _ => .incomplete

/-! ### The encoder -/

/-- The row of a command (R83). -/
def instrOpcode : Instr → Opcode
  | .chkCompute _ => .chkCompute
  | .chkVerify _ _ => .chkVerify
  | .send _ _ => .send
  | .rxPush _ => .rxPush
  | .deframe => .deframe
  | .tick _ => .tick
  | .regRd _ => .regRd
  | .regWr _ _ => .regWr
  | .softReset => .softReset

/-- The field A of a command (R82). -/
def instrArg : Instr → Byte
  | .chkVerify c _ => c
  | .regRd r => r
  | .regWr r _ => r
  | .chkCompute _ => 0
  | .send _ _ => 0
  | .rxPush _ => 0
  | .deframe => 0
  | .tick _ => 0
  | .softReset => 0

/-- The operand word of a command as bytes; none for the formats without `V` (R82). -/
def instrWord : Instr → Bytes
  | .send _ now => bytesOfWord now
  | .tick now => bytesOfWord now
  | .regWr _ v => bytesOfWord v
  | .chkCompute _ => []
  | .chkVerify _ _ => []
  | .rxPush _ => []
  | .deframe => []
  | .regRd _ => []
  | .softReset => []

/-- The header word `OPC[31:24] A[23:16] LEN[15:0]` of a command (R80). -/
def header (i : Instr) : Word :=
  ((opcodeCode (instrOpcode i)).setWidth 32 <<< 24) ||| ((instrArg i).setWidth 32 <<< 16) |||
    (BitVec.ofNat 16 i.data.length).setWidth 32

/-- The bytes of a command on the port (R80, R81). -/
def encode (i : Instr) : Bytes := bytesOfWord (header i) ++ i.data ++ instrWord i

/-! ### One row of the opcode table on the port -/

/-- The `n` bytes of `w`, bits 7..0 first. -/
def lowBytes (w : Nat) : Nat → Bytes
  | 0 => []
  | n + 1 => BitVec.ofNat 8 w :: lowBytes (w / 256) n

/-- The bytes of the command whose bits are `w`, numbered as spec/opcode_table.json numbers them:
bits 31..0 are the header, the operand bytes count on from bit 32, and an operand word follows them.
Bits at or above `nbits` are 0. An illegal header is its four bytes. -/
def commandBytes (nbits w : Nat) : Bytes :=
  let bits := w % 2 ^ nbits
  let h : Word := BitVec.ofNat 32 bits
  match decodeHeader h with
  | .error _ => bytesOfWord h
  | .ok op =>
    let n := dataLength op h
    let operands := bits >>> 32
    bytesOfWord h ++ lowBytes operands n ++
      (if takesWord (opcodeFormat op) then bytesOfWord (BitVec.ofNat 32 (operands >>> (8 * n))) else [])

/-- The command that the decoder reads from the bits `w` of a table row. -/
def decodeTableWord (nbits w : Nat) : Option Instr :=
  match decode (commandBytes nbits w) with
  | .command i _ => some i
  | .illegal _ _ => none
  | .incomplete => none

end Sys2Proof
end

