-- ==== Sys2Proof/Machine/State.lean ====
section
/-! DEFINITION. The state of one block instance (10_state.md R20 to R46), its statuses, events and
responses, the reasons a step can stop, and the state after power-on reset (R240). -/

namespace Sys2Proof.Machine

/-- The status of a command's response (60_exceptions.md R221). -/
inductive Status where
  | ok | illegalCmd | badReg | badConfig | rxOverflow
  deriving DecidableEq, Repr

/-- Why a frame is damaged (60_exceptions.md R225). -/
inductive Damage where
  | check | short | resync
  deriving DecidableEq, Repr

/-- An entry of the EVENT port (60_exceptions.md R225). -/
inductive Event where
  | frameDelivered
  | frameDamaged (why : Damage)
  | ackSent
  | ackReceived
  | timeoutRetransmit
  deriving DecidableEq, Repr

/-- The response of a command (10_state.md R45). -/
structure Response where
  status : Status
  result : Word
  deriving DecidableEq, Repr

/-- The state of one block instance and of its ports (10_state.md R46), with the model's own record of
the command interface (`cmd`, `resp`). -/
structure State where
  /-- Register 0x00: check kind and ARQ enable (R21). -/
  ctrl : Word
  /-- Register 0x01: the four tag bytes (R23). -/
  tags : Word
  /-- Register 0x02: the largest sub-frame (R24). -/
  maxframe : Word
  /-- Register 0x03: generator and width (R25). -/
  crccfg : Word
  /-- Register 0x04: the ARQ timeout (R26). -/
  timeout : Word
  /-- `sendFrameNum` (R31). -/
  sfn : BitVec 1
  /-- `expectedReceiveFrameNum` (R32). -/
  erfn : BitVec 1
  /-- `waitingForAck`: 0 is Idle, 1 is AwaitingAck (R33). -/
  wait : BitVec 1
  /-- The time of the last ARQ send or retransmission (R35). -/
  sentTs : Word
  /-- The outstanding ARQ wire frame (R34). -/
  resend : Bytes
  /-- The receive buffer (R30). -/
  rxbuf : Bytes
  /-- The parameter `RXBUF_CAP`; `none` is unbounded (R7, R30; entry 5). -/
  rxbufCap : Option Nat
  /-- The TX port: one wire frame an entry (R37). -/
  tx : List Bytes
  /-- The DELIVER port: one payload an entry (R37). -/
  deliver : List Bytes
  /-- The EVENT port (R37). -/
  event : List Event
  /-- The model's own: command bytes the host has sent and the block has not consumed (R81; entry 1). -/
  cmd : Bytes
  /-- The model's own: the responses the host has taken, the oldest first (R45; entry 4). -/
  resp : List Response
  deriving DecidableEq, Repr

/-- Why a step stops with a fault. The type is empty: the block raises no exception and takes no trap
(60_exceptions.md R220, R228), so no command raises a fault (entry 10; safe). -/
inductive Fault where
  deriving DecidableEq, Repr

/-- Why a step has no meaning. -/
inductive Refusal where
  /-- Raised only by an arm of `exec` whose command has no meaning yet; no arm does so now. Safe: nothing
  can be proved of such a command. -/
  | notModelled (mnemonic : String)
  deriving DecidableEq, Repr

/-- The block after power-on reset (70_reset_and_hazards.md R240), with empty ports, an empty command
port and no response yet (entries 3, 4, 7), and with the implementation's capacity (entry 5). -/
def State.reset : State where
  ctrl := 0x00000001
  tags := 0x405C7D7B
  maxframe := 0x00000008
  crccfg := 0x000800A7
  timeout := 0x00000064
  sfn := 0
  erfn := 0
  wait := 0
  sentTs := 0
  resend := []
  rxbuf := []
  rxbufCap := Config.resetCapacity
  tx := []
  deliver := []
  event := []
  cmd := []
  resp := []

end Sys2Proof.Machine
end

