-- ==== Sys2Proof/Machine/Flags.lean ====
section
/-! DEFINITION. The status flags and codes the block computes: the ARQSTAT view (10_state.md R27), the
codes of statuses and events (60_exceptions.md R221, R225), the timeout predicate (43_arq.md R178), the
capacity test (42_deframer.md R140) and the length views (10_state.md R29, R36). -/

namespace Sys2Proof.Machine

/-- The status codes (R221). -/
def statusCode : Status → Byte
  | .ok => 0x00
  | .illegalCmd => 0x01
  | .badReg => 0x02
  | .badConfig => 0x03
  | .rxOverflow => 0x04

/-- The event codes (R225). -/
def eventCode : Event → Byte
  | .frameDelivered => 0x01
  | .frameDamaged .check => 0x02
  | .frameDamaged .short => 0x03
  | .frameDamaged .resync => 0x04
  | .ackSent => 0x05
  | .ackReceived => 0x06
  | .timeoutRetransmit => 0x07

/-- ARQSTAT: SFN at bit 0, ERFN at bit 1, WAIT at bit 2 (R27, R200). -/
def arqStatus (sfn erfn wait : BitVec 1) : Word :=
  (wait.setWidth 32 <<< 2) ||| (erfn.setWidth 32 <<< 1) ||| sfn.setWidth 32

/-- RXLEN and RESENDLEN: the length of a buffer, at most 0xFFFFFFFF (R29, R36). -/
def lengthView (bs : Bytes) : Word := BitVec.ofNat 32 (min bs.length 0xFFFFFFFF)

/-- `timedOut(now)`: the modular elapsed time exceeds TIMEOUT, unsigned and strict (R178). -/
def timedOut (now sentTs timeout : Word) : Bool := decide (timeout < now - sentTs)

/-- The values R7 allows for RXBUF_CAP: unbounded, or at least 1. -/
def capacityLegal (cap : Option Nat) : Bool := cap != some 0

/-- A buffer of `n` bytes does not exceed RXBUF_CAP (R140). -/
def withinCapacity (cap : Option Nat) (n : Nat) : Bool :=
  match cap with
  | none => true
  | some c => decide (n ≤ c)

end Sys2Proof.Machine
end

