-- ==== Sys2Proof/Machine/Operands.lean ====
section
/-! DEFINITION. The fields of the configuration registers (10_state.md R21 to R26), the register map
(R20), and which values a register accepts (44_control.md R202 to R206). -/

namespace Sys2Proof.Machine

/-! ### Fields -/

/-- CTRL.CHK_KIND = 1: the check is a CRC; 0: it is parity (R21). -/
def crcSelected (ctrl : Word) : Bool := ctrl[0]

/-- CTRL.ARQ_EN = 1 (R21). -/
def arqEnabled (ctrl : Word) : Bool := ctrl[1]

/-- TAGS.START (R23). -/
def tagStart (tags : Word) : Byte := tags.extractLsb' 0 8

/-- TAGS.STOP (R23). -/
def tagStop (tags : Word) : Byte := tags.extractLsb' 8 8

/-- TAGS.ESC (R23). -/
def tagEsc (tags : Word) : Byte := tags.extractLsb' 16 8

/-- TAGS.ACK (R23). -/
def tagAck (tags : Word) : Byte := tags.extractLsb' 24 8

/-- MAXFRAME.M, the largest sub-frame in bytes (R24). -/
def maxFrameSize (maxframe : Word) : Nat := (maxframe.extractLsb' 0 16).toNat

/-- CRCCFG.POLY, the generator: bit i is the coefficient of x^i (R25). -/
def crcPoly (crccfg : Word) : BitVec 9 := crccfg.extractLsb' 0 9

/-- CRCCFG.WIDTH, the number of bits of the generator (R25). -/
def crcWidth (crccfg : Word) : Nat := (crccfg.extractLsb' 16 4).toNat

/-! ### The register map -/

/-- The nine registers (R20). -/
inductive Reg where
  | ctrl | tags | maxframe | crccfg | timeout | arqstat | sentts | rxlen | resendlen
  deriving DecidableEq, Repr

/-- The register with a given number; numbers 0x09 to 0xFF are unmapped (R20, R61). -/
def regOf (r : Byte) : Option Reg :=
  match r.toNat with
  | 0 => some .ctrl
  | 1 => some .tags
  | 2 => some .maxframe
  | 3 => some .crccfg
  | 4 => some .timeout
  | 5 => some .arqstat
  | 6 => some .sentts
  | 7 => some .rxlen
  | 8 => some .resendlen
  | _ => none

/-! ### Legal values -/

/-- checkCTRL (R202). -/
def ctrlLegal (v : Word) : Bool := v.extractLsb' 2 30 == 0

/-- checkTAGS: the four tags are pairwise distinct (R203). -/
def tagsLegal (v : Word) : Bool :=
  tagStart v != tagStop v && tagStart v != tagEsc v && tagStart v != tagAck v &&
  tagStop v != tagEsc v && tagStop v != tagAck v && tagEsc v != tagAck v

/-- checkMAXFRAME (R204). -/
def maxframeLegal (v : Word) : Bool := v.extractLsb' 16 16 == 0 && maxFrameSize v != 0

/-- checkCRCCFG (R205). -/
def crccfgLegal (v : Word) : Bool :=
  v.extractLsb' 20 12 == 0 && v.extractLsb' 9 7 == 0 &&
  decide (2 ≤ crcWidth v) && decide (crcWidth v ≤ 9) &&
  decide ((crcPoly v).toNat < 2 ^ crcWidth v) && (crcPoly v).getLsbD (crcWidth v - 1)

/-- What REG_WR of a value to a register reports: BAD_REG for the read-only views (R207), BAD_CONFIG for
an illegal value (R202 to R205), else OK; TIMEOUT takes every value (R206). -/
def writeStatus (reg : Reg) (v : Word) : Status :=
  match reg with
  | .ctrl => if ctrlLegal v then .ok else .badConfig
  | .tags => if tagsLegal v then .ok else .badConfig
  | .maxframe => if maxframeLegal v then .ok else .badConfig
  | .crccfg => if crccfgLegal v then .ok else .badConfig
  | .timeout => .ok
  | .arqstat => .badReg
  | .sentts => .badReg
  | .rxlen => .badReg
  | .resendlen => .badReg

end Sys2Proof.Machine
end

