-- ==== Sys2Proof/Machine/Ops.lean ====
section
/-! DEFINITION. The named operations every meaning is built from: the ports (10_state.md R37), the
response and `fail` (00_scope.md R10, 10_state.md R45, 60_exceptions.md R223), the register space
(10_state.md R20), and the resets (70_reset_and_hazards.md R240 to R242).

The block takes no exception and has no return from one (60_exceptions.md R220, R228): `fail` stands in
that place. -/

namespace Sys2Proof.Machine

/-! ### Ports -/

/-- `Transmit(f)`: one entry on TX (R10, R37). -/
def transmit (f : Bytes) (s : State) : State := { s with tx := s.tx ++ [f] }

/-- `Transmit` of each frame of a list, in order (R126). -/
def transmitAll (fs : List Bytes) (s : State) : State := fs.foldl (fun t f => transmit f t) s

/-- `Deliver(p)`: one entry on DELIVER (R10, R37). -/
def deliverPayload (p : Bytes) (s : State) : State := { s with deliver := s.deliver ++ [p] }

/-- `Emit(e)`: one entry on EVENT (R10, R37). -/
def emit (e : Event) (s : State) : State := { s with event := s.event ++ [e] }

/-! ### Responses -/

/-- The response of a command: the host takes it at the command's end, and no register holds it
(R45; entry 4). -/
def respond (status : Status) (result : Word) (s : State) : State :=
  { s with resp := s.resp ++ [⟨status, result⟩] }

/-- `return r`: status OK and the result (R10, R45). -/
def finish (p : State × Word) : Host.Outcome State Fault Refusal := .next (respond .ok p.2 p.1)

/-- `fail S`: status S, result 0, and the state as the command found it (R10, R45, R223). -/
def fail (status : Status) (s : State) : Host.Outcome State Fault Refusal := .next (respond status 0 s)

/-! ### Registers -/

/-- The value a register reads as; the views are computed from the live state (R200). -/
def readReg (reg : Reg) (s : State) : Word :=
  match reg with
  | .ctrl => s.ctrl
  | .tags => s.tags
  | .maxframe => s.maxframe
  | .crccfg => s.crccfg
  | .timeout => s.timeout
  | .arqstat => arqStatus s.sfn s.erfn s.wait
  | .sentts => s.sentTs
  | .rxlen => lengthView s.rxbuf
  | .resendlen => lengthView s.resend

/-- `reg[NAME] <- v` of a configuration register; a view is not storage and keeps its state (R46, R201). -/
def writeReg (reg : Reg) (v : Word) (s : State) : State :=
  match reg with
  | .ctrl => { s with ctrl := v }
  | .tags => { s with tags := v }
  | .maxframe => { s with maxframe := v }
  | .crccfg => { s with crccfg := v }
  | .timeout => { s with timeout := v }
  | .arqstat => s
  | .sentts => s
  | .rxlen => s
  | .resendlen => s

/-! ### The receive buffer -/

/-- Append received bytes at the end of RXBUF (R62, R140). -/
def rxAppend (d : Bytes) (s : State) : State := { s with rxbuf := s.rxbuf ++ d }

/-! ### Resets -/

/-- "Link startup": the ARQ state and RXBUF at their reset values (R208, R241). -/
def resetLink (s : State) : State :=
  { s with sfn := 0, erfn := 0, wait := 0, resend := [], sentTs := 0, rxbuf := [] }

/-- Power-on reset of a running block: every register and buffer at the value of R240, the ports and the
record of responses kept (R242), the parameter kept, no command pending (R242; entry 7). -/
def powerOnReset (s : State) : State :=
  { resetLink s with
    ctrl := State.reset.ctrl
    tags := State.reset.tags
    maxframe := State.reset.maxframe
    crccfg := State.reset.crccfg
    timeout := State.reset.timeout
    cmd := [] }

end Sys2Proof.Machine
end

