-- ==== Sys2Proof/Machine/Control.lean ====
section
/-! DEFINITION. The control commands (44_control.md R200 to R209): REG_RD, REG_WR, SOFT_RESET, and what
an illegal header does. -/

namespace Sys2Proof.Machine

/-- REG_RD (R200). -/
def execRegRd (r : Byte) (s : State) : Host.Outcome State Fault Refusal :=
  match regOf r with
  | none => fail .badReg s
  | some reg => finish (s, readReg reg s)

/-- REG_WR (R201): BAD_REG before BAD_CONFIG (R222), and the one register when the value passes. -/
def execRegWr (r : Byte) (v : Word) (s : State) : Host.Outcome State Fault Refusal :=
  match regOf r with
  | none => fail .badReg s
  | some reg => if writeStatus reg v = .ok then finish (writeReg reg v s, 0) else fail (writeStatus reg v) s

/-- SOFT_RESET (R208). -/
def execSoftReset (s : State) : Host.Outcome State Fault Refusal := finish (resetLink s, 0)

/-- An illegal header, its four bytes consumed: status ILLEGAL_CMD and no other effect (R209). -/
def illegalCommand (s : State) : Host.Outcome State Fault Refusal := fail .illegalCmd s

end Sys2Proof.Machine
end

