-- ==== Sys2Proof/Machine/Checksum.lean ====
section
/-! DEFINITION. The Checksum Engine (40_checksum.md R100 to R108): parity, the bit-serial CRC, the check
byte, and the commands CHK_COMPUTE and CHK_VERIFY. -/

namespace Sys2Proof.Machine

/-- The number of 1 bits of a byte (R9). -/
def popcount (b : Byte) : Nat := (List.range 8).countP (fun i => b.getLsbD i)

/-- `parity(bs)`, bit by bit of R100: 1 is odd. -/
def parity (bs : Bytes) : BitVec 1 :=
  bs.foldl (fun p b => p ^^^ BitVec.ofNat 1 (popcount b % 2)) 0

/-- `bitstream(bs)`: byte 0 first, bit 7 of each byte first (R64). -/
def bitstream (bs : Bytes) : List Bool :=
  bs.flatMap fun b =>
    [b.getLsbD 7, b.getLsbD 6, b.getLsbD 5, b.getLsbD 4, b.getLsbD 3, b.getLsbD 2, b.getLsbD 1, b.getLsbD 0]

/-- One step of the shift register: shift the bit in, and subtract the generator when the leading
position becomes 1 (R102). -/
def crcStep {w : Nat} (g r : BitVec w) (b : Bool) : BitVec w :=
  let shifted := (r <<< 1) ||| (BitVec.ofBool b).setWidth w
  if shifted.msb then shifted ^^^ g else shifted

/-- `crc(W, G, bs)`: the message with W-1 zero bits appended goes through the register, which starts at
0; the result is its low W-1 bits (R102). -/
def crc (w : Nat) (g : BitVec w) (bs : Bytes) : BitVec (w - 1) :=
  ((bitstream bs ++ List.replicate (w - 1) false).foldl (crcStep g) 0).setWidth (w - 1)

/-- `checkByte(bs)`: the check value of the selected kind, zero-extended to a byte (R104, R105). -/
def checkByte (ctrl crccfg : Word) (bs : Bytes) : Byte :=
  if crcSelected ctrl then
    (crc (crcWidth crccfg) ((crcPoly crccfg).setWidth (crcWidth crccfg)) bs).setWidth 8
  else (parity bs).setWidth 8

/-- `verify(bs, c)`: recompute and compare the whole byte (R106). -/
def verify (ctrl crccfg : Word) (bs : Bytes) (c : Byte) : Bool := checkByte ctrl crccfg bs == c

/-- CHK_COMPUTE (R107). -/
def execChkCompute (d : Bytes) (s : State) : Host.Outcome State Fault Refusal :=
  finish (s, (checkByte s.ctrl s.crccfg d).setWidth 32)

/-- CHK_VERIFY (R108). -/
def execChkVerify (c : Byte) (d : Bytes) (s : State) : Host.Outcome State Fault Refusal :=
  finish (s, if verify s.ctrl s.crccfg d c then 1 else 0)

end Sys2Proof.Machine
end

