-- ==== Sys2Proof/Machine/Framer.lean ====
section
/-! DEFINITION. The Framer's functions (41_framer.md R120 to R125, R127): byte stuffing, wire frames,
sub-frames and the contents of frames. They read the configuration registers they are given. -/

namespace Sys2Proof.Machine

/-- Membership in the stuff set: START, STOP, ESC, and ACK when ARQ is on (R120). -/
def inStuffSet (ctrl tags : Word) (b : Byte) : Bool :=
  b == tagStart tags || b == tagStop tags || b == tagEsc tags || (arqEnabled ctrl && b == tagAck tags)

/-- `stuff(bs)`: each byte of the stuff set is preceded by one ESC (R121). -/
def stuff (ctrl tags : Word) (bs : Bytes) : Bytes :=
  bs.flatMap fun b => if inStuffSet ctrl tags b then [tagEsc tags, b] else [b]

/-- `wireFrame(content)` (R122). -/
def wireFrame (ctrl tags : Word) (content : Bytes) : Bytes :=
  [tagStart tags] ++ stuff ctrl tags content ++ [tagStop tags]

/-- `chunks(xs, M)` (R9): successive slices of length M, the last may be shorter; `fuel` bounds their
number. M is at least 1 in every state a run reaches (R204; entry 9). -/
def chunksFuel (m : Nat) : Nat → Bytes → List Bytes
  | 0, _ => []
  | _ + 1, [] => []
  | fuel + 1, b :: bs => (b :: bs).take m :: chunksFuel m fuel ((b :: bs).drop m)

/-- `chunks(xs, M)` (R9). -/
def chunks (m : Nat) (bs : Bytes) : List Bytes := chunksFuel m bs.length bs

/-- `subframes(P, M)`: an empty payload is one empty sub-frame (R123). -/
def subframes (p : Bytes) (m : Nat) : List Bytes := if p.isEmpty then [[]] else chunks m p

/-- Non-ARQ content: data, then its check byte (R124). -/
def contentPlain (ctrl crccfg : Word) (c : Bytes) : Bytes := c ++ [checkByte ctrl crccfg c]

/-- `seqByte(n)`: 0x00 or 0x01 (R125). -/
def seqByte (n : BitVec 1) : Byte := n.setWidth 8

/-- ARQ content: payload, sequence byte, check byte over both (R125). -/
def contentArq (ctrl crccfg : Word) (p : Bytes) (n : BitVec 1) : Bytes :=
  p ++ [seqByte n] ++ [checkByte ctrl crccfg (p ++ [seqByte n])]

/-- The acknowledgment frame, unstuffed and without trailer (R127). -/
def ackFrame (tags : Word) : Bytes := [tagStart tags, tagAck tags, tagStop tags]

/-- The TX entries of a non-ARQ SEND: one frame for each sub-frame, in order (R126). -/
def plainFrames (ctrl tags maxframe crccfg : Word) (p : Bytes) : List Bytes :=
  (subframes p (maxFrameSize maxframe)).map fun c => wireFrame ctrl tags (contentPlain ctrl crccfg c)

end Sys2Proof.Machine
end

