-- ==== Sys2Proof/Machine/Arq.lean ====
section
/-! DEFINITION. The ARQ Controller (43_arq.md R170 to R181): sending, receiving, the timer, and the
commands SEND (41_framer.md R126) and TICK. -/

namespace Sys2Proof.Machine

/-- What `resolveFrame` makes of a complete frame's content (42_deframer.md R150, R151). -/
inductive Resolved where
  | damaged (why : Damage)
  | payload
  | ackConsumed
  | duplicate
  deriving DecidableEq, Repr

/-- `arqSend(P, now)`: refused while AwaitingAck (R172); in Idle the frame is transmitted, stored and
timed, and the state becomes AwaitingAck (R171). -/
def arqSend (p : Bytes) (now : Word) (s : State) : State × Word :=
  if s.wait = 1 then (s, 0)
  else
    let f := wireFrame s.ctrl s.tags (contentArq s.ctrl s.crccfg p s.sfn)
    ({ transmit f s with resend := f, sentTs := now, wait := 1 }, 1)

/-- `onAckReceived()`: in AwaitingAck the frame is cleared and SFN inverted (R173); in Idle nothing but
the event (R174). -/
def onAckReceived (s : State) : State :=
  let t := emit .ackReceived s
  if s.wait = 1 then { t with wait := 0, sfn := s.sfn ^^^ 1, resend := [] } else t

/-- `onDataReceived(P, s)`: always acknowledge; deliver and invert ERFN when the sequence byte is the
expected one, else discard (R175). -/
def onDataReceived (p : Bytes) (seq : Byte) (s : State) : State × Resolved :=
  let t := emit .ackSent (transmit (ackFrame s.tags) s)
  if seq = seqByte s.erfn then
    ({ emit .frameDelivered (deliverPayload p t) with erfn := s.erfn ^^^ 1 }, .payload)
  else (t, .duplicate)

/-- SEND (R126). -/
def execSend (d : Bytes) (now : Word) (s : State) : Host.Outcome State Fault Refusal :=
  if arqEnabled s.ctrl then finish (arqSend d now s)
  else finish (transmitAll (plainFrames s.ctrl s.tags s.maxframe s.crccfg d) s, 1)

/-- TICK (R177): the stored frame goes out again, byte for byte (R179), when ARQ is on, a frame is
outstanding and the timer has expired. -/
def execTick (now : Word) (s : State) : Host.Outcome State Fault Refusal :=
  if arqEnabled s.ctrl && s.wait == 1 && timedOut now s.sentTs s.timeout then
    finish (emit .timeoutRetransmit { transmit s.resend s with sentTs := now }, 1)
  else finish (s, 0)

end Sys2Proof.Machine
end

