-- ==== Sys2Proof/Machine/Deframer.lean ====
section
/-! DEFINITION. The Deframer (42_deframer.md R140 to R153): the scan of the receive buffer, the
resolution of complete frames, and the commands RX_PUSH and DEFRAME. -/

namespace Sys2Proof.Machine

/-- What one scan answers: the events it emits, RXBUF after it, and the content of the frame it
completed; no content is INCOMPLETE (R143). -/
structure Scan where
  events : List Event
  rxbuf : Bytes
  content : Option Bytes
  deriving DecidableEq, Repr

/-- Seeking-Start: every byte before the first START is removed, ESC, STOP and ACK included (R144). -/
def seekStart (tags : Word) : Bytes → Bytes
  | [] => []
  | b :: rest => if b = tagStart tags then b :: rest else seekStart tags rest

/-- Accumulating (R143): `rest` is RXBUF from the cursor on, `frame` is RXBUF, which begins with this
frame's START, and `acc` is the content so far. The branches are R149, R145, R146, R147 and R148. -/
def accumulate (tags : Word) : Bytes → Bytes → Bytes → Scan
  | [], frame, _ => ⟨[], frame, none⟩
  | b :: rest, frame, acc =>
    if b = tagEsc tags then
      match rest with
      | [] => ⟨[], frame, none⟩
      | c :: rest' => accumulate tags rest' frame (acc ++ [c])
    else if b = tagStop tags then ⟨[], rest, some acc⟩
    else if b = tagStart tags then
      let r := accumulate tags rest (b :: rest) []
      { r with events := .frameDamaged .resync :: r.events }
    else accumulate tags rest frame (acc ++ [b])

/-- `scanFrame()` as a function of TAGS and RXBUF (R143). -/
def scan (tags : Word) (rxbuf : Bytes) : Scan :=
  match seekStart tags rxbuf with
  | [] => ⟨[], [], none⟩
  | b :: rest => accumulate tags rest (b :: rest) []

/-- The state after a scan: RXBUF without what it removed, EVENT with what it emitted (R143). -/
def applyScan (r : Scan) (s : State) : State :=
  { s with rxbuf := r.rxbuf, event := s.event ++ r.events }

/-- resolveFrame with ARQ_EN = 0: data, then one check byte (R150). -/
def resolvePlain (acc : Bytes) (s : State) : State × Resolved :=
  match acc.getLast? with
  | none => (s, .damaged .short)
  | some c =>
    if verify s.ctrl s.crccfg acc.dropLast c then
      (emit .frameDelivered (deliverPayload acc.dropLast s), .payload)
    else (s, .damaged .check)

/-- resolveFrame with ARQ_EN = 1: the acknowledgment shape first, then payload, sequence byte and check
byte (R151; 90_conflicts.md C4). -/
def resolveArq (acc : Bytes) (s : State) : State × Resolved :=
  if acc = [tagAck s.tags] then (onAckReceived s, .ackConsumed)
  else
    match acc.getLast?, acc.dropLast.getLast? with
    | some c, some seq =>
      let p := acc.dropLast.dropLast
      if verify s.ctrl s.crccfg (p ++ [seq]) c then onDataReceived p seq s
      else (s, .damaged .check)
    | _, _ => (s, .damaged .short)

/-- `resolveFrame(acc)` (R150, R151). -/
def resolveFrame (acc : Bytes) (s : State) : State × Resolved :=
  if arqEnabled s.ctrl then resolveArq acc s else resolvePlain acc s

/-- The loop of DEFRAME (R142). Each damaged frame removes bytes from RXBUF (R154), so fuel above its
length never runs out (entry 13). -/
def deframeLoop : Nat → State → State × Word
  | 0, s => (s, 1)
  | fuel + 1, s =>
    let r := scan s.tags s.rxbuf
    let t := applyScan r s
    match r.content with
    | none => (t, 1)
    | some acc =>
      match resolveFrame acc t with
      | (u, .damaged why) => deframeLoop fuel (emit (.frameDamaged why) u)
      | (u, .payload) => (u, 0)
      | (u, .ackConsumed) => (u, 2)
      | (u, .duplicate) => (u, 3)

/-- RX_PUSH (R140): all of the bytes or, with RX_OVERFLOW, none. It answers a next state whatever the open
capacity is (entry 5). -/
def execRxPush (d : Bytes) (s : State) : Host.Outcome State Fault Refusal :=
  .next (if withinCapacity s.rxbufCap (s.rxbuf.length + d.length) then
      respond .ok (BitVec.ofNat 32 d.length) (rxAppend d s)
    else respond .rxOverflow 0 s)

/-- DEFRAME (R142). -/
def execDeframe (s : State) : Host.Outcome State Fault Refusal :=
  finish (deframeLoop (s.rxbuf.length + 1) s)

end Sys2Proof.Machine
end

