-- ==== Sys2Proof/Machine/Dispatch.lean ====
section
/-! DEFINITION. The meaning of each command (30_encoding.md R83), one arm for each constructor. -/

namespace Sys2Proof.Machine

def exec (i : Instr) (s : State) : Host.Outcome State Fault Refusal :=
  match i with
  | .chkCompute d => Sys2Proof.Machine.execChkCompute d s
  | .chkVerify c d => Sys2Proof.Machine.execChkVerify c d s
  | .send d now => Sys2Proof.Machine.execSend d now s
  | .rxPush d => Sys2Proof.Machine.execRxPush d s
  | .deframe => Sys2Proof.Machine.execDeframe s
  | .tick now => Sys2Proof.Machine.execTick now s
  | .regRd r => Sys2Proof.Machine.execRegRd r s
  | .regWr r v => Sys2Proof.Machine.execRegWr r v s
  | .softReset => Sys2Proof.Machine.execSoftReset s

end Sys2Proof.Machine
end

