-- ==== Sys2Proof/Machine/Step.lean ====
section
/-! DEFINITION. One step of the block: the next command on the command port runs to completion
(00_scope.md R6, 20_memory.md R70, R71). -/

namespace Sys2Proof.Machine

/-- One step: consume the next whole command and run it (R71); consume an illegal header and answer it
(R87, R209); wait, unchanged, while no whole command has arrived (R235, R243; entry 2). -/
def step (s : State) : Host.Outcome State Fault Refusal :=
  match decode s.cmd with
  | .command i rest => exec i { s with cmd := rest }
  | .illegal _ rest => illegalCommand { s with cmd := rest }
  | .incomplete => .next s

/-- The command whose bits are `w`, put at the front of the command port, so that the next step consumes
it (entry 3). -/
def State.withFetchWord (s : State) (nbits w : Nat) : State :=
  { s with cmd := commandBytes nbits w ++ s.cmd }

end Sys2Proof.Machine
end

