-- ==== Sys2Proof/Safety.lean ====
section
/-! DEFINITION. The terms the claims use: the invariant of a block, runs of commands, what an ARQ block
must not use while ARQ is off, the spec's scan by buffer positions (42_deframer.md R143), and bit
strings read as polynomials over GF(2) (40_checksum.md R101). No meaning depends on this file. -/

namespace Sys2Proof.Machine

/-! ### Safe states -/

/-- Every configuration register holds a value that REG_WR accepts (44_control.md R202 to R205). -/
def configLegal (s : State) : Bool :=
  ctrlLegal s.ctrl && tagsLegal s.tags && maxframeLegal s.maxframe && crccfgLegal s.crccfg

/-- WAIT = 1 exactly when RESEND is not empty (10_state.md R43). -/
def arqConsistent (s : State) : Bool := (s.wait == 1) == !s.resend.isEmpty

/-- RXBUF_CAP is one of the values R7 allows, and RXBUF is no longer than it (10_state.md R46). -/
def rxWithinCapacity (s : State) : Bool :=
  capacityLegal s.rxbufCap && withinCapacity s.rxbufCap s.rxbuf.length

/-- A response that is not OK has result 0 (10_state.md R45). -/
def responseSound (r : Response) : Bool := r.status == .ok || r.result == 0

/-- The invariant of a block: legal configuration, consistent ARQ state, a legal capacity with RXBUF within
it, and sound responses. -/
def invariant (s : State) : Bool :=
  configLegal s && arqConsistent s && rxWithinCapacity s && s.resp.all responseSound

/-- Every output port of `t` continues that of `s`: no entry is changed or withdrawn (10_state.md R37). -/
def portsExtend (s t : State) : Prop :=
  s.tx <+: t.tx ∧ s.deliver <+: t.deliver ∧ s.event <+: t.event

/-! ### Runs -/

/-- A sequence of commands, each applied to the state the one before it left (20_memory.md R71). -/
def execAll : List Instr → State → Host.Outcome State Fault Refusal
  | [], s => .next s
  | i :: is, s =>
    match exec i s with
    | .next t => execAll is t
    | .fault r => .fault r
    | .refused r => .refused r

/-- `s` with the ARQ state of `a` (10_state.md R31 to R35) in place of its own. -/
def withArqOf (a s : State) : State :=
  { s with sfn := a.sfn, erfn := a.erfn, wait := a.wait, resend := a.resend, sentTs := a.sentTs }

/-! ### The scan by positions -/

/-- The accumulating loop of R143 letter for letter: `rxbuf` is RXBUF, `j` the cursor, `acc` the content,
`events` what has been emitted. The fuel bounds the number of passes. -/
def scanPositions (tags : Word) : Nat → Bytes → Bytes → Nat → List Event → Scan
  | 0, rxbuf, _, _, events => ⟨events, rxbuf, none⟩
  | fuel + 1, rxbuf, acc, j, events =>
    match rxbuf[j]? with
    | none => ⟨events, rxbuf, none⟩
    | some b =>
      if b = tagEsc tags then
        match rxbuf[j + 1]? with
        | none => ⟨events, rxbuf, none⟩
        | some c => scanPositions tags fuel rxbuf (acc ++ [c]) (j + 2) events
      else if b = tagStop tags then ⟨events, rxbuf.drop (j + 1), some acc⟩
      else if b = tagStart tags then
        scanPositions tags fuel (rxbuf.drop j) [] 1 (events ++ [.frameDamaged .resync])
      else scanPositions tags fuel rxbuf (acc ++ [b]) (j + 1) events

/-- `scanFrame()` of R143: the least index of a START, then the accumulating loop from position 1. -/
def scanByPositions (tags : Word) (rxbuf : Bytes) : Scan :=
  match rxbuf.findIdx? (fun b => b == tagStart tags) with
  | none => ⟨[], [], none⟩
  | some i => scanPositions tags (rxbuf.drop i).length (rxbuf.drop i) [] 1 []

/-! ### Polynomials over GF(2) -/

/-- A bit stream as a polynomial: the first bit is the highest coefficient (R101). -/
noncomputable def polyOfBits (m : List Bool) : Polynomial (ZMod 2) :=
  ∑ k ∈ Finset.range m.length, if m.getD k false then Polynomial.X ^ (m.length - 1 - k) else 0

/-- A register value as a polynomial: bit i is the coefficient of x^i (R101, R103). -/
noncomputable def polyOfVector {w : Nat} (v : BitVec w) : Polynomial (ZMod 2) :=
  ∑ i ∈ Finset.range w, if v.getLsbD i then Polynomial.X ^ i else 0

end Sys2Proof.Machine
end

