-- ==== Sys2Proof/Certificates/Slice0/Obligations.lean ====
section
/-! DEFINITION. The statements about the block, from the numbered rules of spec/. Each docstring names
the rules; OBLIGATIONS.json lists them. -/

open Sys2Proof Sys2Proof.Machine

/-! ### Encoding and the command port -/

/-- Every well-formed command is decoded from its encoding, whatever follows it on the port (30_encoding.md
sections 1 to 3). That the port is one queue of bytes, words most significant byte first, is the model's choice
(entry 1, after R66). -/
def Obligations.DecodeReadsBackEveryEncoding : Prop :=
  ∀ (i : Instr) (rest : Bytes), i.wellFormed = true → decode (encode i ++ rest) = .command i rest

/-- A command is read only from its one encoding: no bit of a legal command is dropped, and no other bytes
decode to it (30_encoding.md sections 1 to 3; the port as one queue of bytes is the model's choice, entry 1). -/
def Obligations.EveryCommandHasOneEncoding : Prop :=
  ∀ (bytes rest : Bytes) (i : Instr), decode bytes = .command i rest →
    i.wellFormed = true ∧ bytes = encode i ++ rest

/-- 30_encoding.md section 5 (R92): the worked encodings, the illegal headers among them. The rule gives words;
that they stand here as bytes of one queue, most significant first, is the model's choice (entry 1, after R66 of
20_memory.md section 2). -/
def Obligations.WorkedEncodingsDecode : Prop :=
  decode [0x01, 0x00, 0x00, 0x02, 0x41, 0x42] = .command (.chkCompute [0x41, 0x42]) [] ∧
  decode [0x02, 0x77, 0x00, 0x02, 0x41, 0x42] = .command (.chkVerify 0x77 [0x41, 0x42]) [] ∧
  decode [0x03, 0x00, 0x00, 0x02, 0x48, 0x69, 0x00, 0x00, 0x00, 0x00] = .command (.send [0x48, 0x69] 0) [] ∧
  decode [0x04, 0x00, 0x00, 0x03, 0x7B, 0x40, 0x7D] = .command (.rxPush [0x7B, 0x40, 0x7D]) [] ∧
  decode [0x05, 0x00, 0x00, 0x00] = .command .deframe [] ∧
  decode [0x06, 0x00, 0x00, 0x00, 0x00, 0x00, 0x00, 0x65] = .command (.tick 101) [] ∧
  decode [0x07, 0x05, 0x00, 0x00] = .command (.regRd 0x05) [] ∧
  decode [0x08, 0x00, 0x00, 0x00, 0x00, 0x00, 0x00, 0x02] = .command (.regWr 0x00 2) [] ∧
  decode [0x09, 0x00, 0x00, 0x00] = .command .softReset [] ∧
  decode [0x00, 0x00, 0x00, 0x00] = .illegal .illegalOpcode [] ∧
  decode [0x0A, 0x00, 0x00, 0x00] = .illegal .illegalOpcode [] ∧
  decode [0x05, 0x00, 0x00, 0x01] = .illegal .mustBeZero [] ∧
  decode [0x04, 0x01, 0x00, 0x00] = .illegal .mustBeZero []

/-- 30_encoding.md sections 2 and 3 (R83, R89): a header selects the row whose match and mask it meets, no
two rows select one header, and a header that meets none is illegal. -/
def Obligations.HeaderSelectsItsRowByMatchAndMask : Prop :=
  ∀ h : Word,
    (∀ op : Opcode, decodeHeader h = .ok op ↔ h &&& opcodeMask op = opcodePattern op) ∧
    (∀ op op' : Opcode, h &&& opcodeMask op = opcodePattern op → h &&& opcodeMask op' = opcodePattern op' →
      op = op') ∧
    ((∀ op : Opcode, h &&& opcodeMask op ≠ opcodePattern op) → ∃ why, decodeHeader h = .error why)

/-- 30_encoding.md section 3 (R85 to R87) and 44_control.md section 3 (R209): a header with OPC 0x00 or 0x0A to
0xFF, or with a must-be-zero bit of its row set, completes with ILLEGAL_CMD and result 0; it alone is consumed
and nothing else changes. That a header is the first four bytes of one queue, most significant first, is the
model's choice (entry 1, after R66 of 20_memory.md section 2). -/
def Obligations.IllegalHeaderOnlyReportsIllegalCmd : Prop :=
  ∀ (s : State) (h : Word) (rest : Bytes), s.cmd = bytesOfWord h ++ rest →
    ((headerOpc h).toNat = 0 ∨ 0x0A ≤ (headerOpc h).toNat ∨
      ∃ (op : Opcode) (k : Nat), headerOpc h = opcodeCode op ∧ (opcodePattern op).getLsbD k = false ∧
        (opcodeMask op).getLsbD k = true ∧ h.getLsbD k = true) →
    step s = .next { s with cmd := rest, resp := s.resp ++ [⟨.illegalCmd, 0⟩] }

/-- 30_encoding.md section 3 (R88): the header alone gives a legal command's length, and exactly that many bytes
are consumed. That the port is waited on below that length is deduced (entry 2), and that the header is the
first four bytes of one queue, most significant first, is the model's choice (entry 1, after R66). -/
def Obligations.CommandLengthFollowsFromHeader : Prop :=
  ∀ (h : Word) (op : Opcode) (rest : Bytes), decodeHeader h = .ok op →
    commandLength op h = 4 + (if op = .chkCompute ∨ op = .chkVerify ∨ op = .send ∨ op = .rxPush
        then headerLen h else 0) + (if op = .send ∨ op = .tick ∨ op = .regWr then 4 else 0) ∧
    (4 + rest.length < commandLength op h → decode (bytesOfWord h ++ rest) = .incomplete) ∧
    (commandLength op h ≤ 4 + rest.length → ∃ i, decode (bytesOfWord h ++ rest) =
      .command i (rest.drop (commandLength op h - 4)))

/-- One step consumes a whole command and is its meaning on what is left; an illegal header is answered and
consumed; an incomplete command waits and nothing changes (20_memory.md section 4; entry 1 for the port as one
queue of bytes, entry 2 for the wait). -/
def Obligations.StepRunsTheDecodedCommand : Prop :=
  ∀ s : State,
    (∀ i rest, decode s.cmd = .command i rest → step s = exec i { s with cmd := rest }) ∧
    (∀ why rest, decode s.cmd = .illegal why rest →
      step s = .next { s with cmd := rest, resp := s.resp ++ [⟨.illegalCmd, 0⟩] }) ∧
    (decode s.cmd = .incomplete → step s = .next s)

/-- 20_memory.md section 4 (R71): the state after the commands on the port is the result of applying each
command's rule in order (entry 1 for the port as one queue of bytes). -/
def Obligations.CommandsTakeEffectInPortOrder : Prop :=
  ∀ (is : List Instr) (rest : Bytes) (s : State), (∀ i ∈ is, i.wellFormed = true) →
    s.cmd = is.flatMap encode ++ rest →
    Host.Core.run Sys2Proof.core is.length s = execAll is { s with cmd := rest }

/-! ### Checksum Engine -/

/-- R100: parity is the sum of the bits modulo 2, 0 for the empty string, whatever the order of the bytes and
of the bits within them. -/
def Obligations.ParityIsTheSumOfAllBits : Prop :=
  (∀ bs : Bytes, (parity bs).toNat = (bs.map popcount).sum % 2) ∧ parity [] = 0 ∧
  (∀ bs bs' : Bytes, bs.Perm bs' → parity bs = parity bs') ∧
  (∀ bs bs' : Bytes, bs.map popcount = bs'.map popcount → parity bs = parity bs')

/-- R103: the bit-serial CRC is the remainder of `M(x) * x^(W-1)` by `G(x)`, for every generator whose
leading bit is 1. -/
def Obligations.CrcIsThePolynomialRemainder : Prop :=
  ∀ (w : Nat) (g : BitVec w) (bs : Bytes), 2 ≤ w → g.msb = true →
    polyOfVector (crc w g bs) = (polyOfBits (bitstream bs) * Polynomial.X ^ (w - 1)) %ₘ polyOfVector g

/-- 40_checksum.md section 3, the laws of R110: linearity, leading zero bytes, zero strings, W = 2 gives
parity, and a generator divisible by x. -/
def Obligations.CheckFunctionsObeyTheirArithmeticLaws : Prop :=
  (∀ a b : Bytes, a.length = b.length →
    parity (List.zipWith (fun x y => x ^^^ y) a b) = parity a ^^^ parity b) ∧
  (∀ bs : Bytes, crc 2 0b11 bs = parity bs) ∧
  ∀ (w : Nat) (g : BitVec w), 2 ≤ w → g.msb = true →
    (∀ a b : Bytes, a.length = b.length →
      crc w g (List.zipWith (fun x y => x ^^^ y) a b) = crc w g a ^^^ crc w g b) ∧
    (∀ bs : Bytes, crc w g (0x00 :: bs) = crc w g bs) ∧
    (∀ n : Nat, crc w g (List.replicate n 0x00) = 0) ∧
    (g.getLsbD 0 = false → ∀ bs : Bytes,
      crc w g bs = (crc (w - 1) ((g >>> 1).setWidth (w - 1)) bs).setWidth (w - 1) <<< 1) ∧
    (g = BitVec.twoPow w (w - 1) → ∀ bs : Bytes, crc w g bs = 0)

/-- 40_checksum.md section 1 (R104, R106): with a legal CRCCFG a CRC check byte is below 2^(W-1), a parity
check byte is 0 or 1, and CHK_VERIFY of a byte above that answers 0. -/
def Obligations.CheckByteStaysWithinItsWidth : Prop :=
  ∀ (s : State) (bs : Bytes) (c : Byte), crccfgLegal s.crccfg = true →
    ((checkByte s.ctrl s.crccfg bs).toNat < (if s.ctrl[0] then 2 ^ (crcWidth s.crccfg - 1) else 2)) ∧
    ((if s.ctrl[0] then 2 ^ (crcWidth s.crccfg - 1) else 2) ≤ c.toNat →
      exec (.chkVerify c bs) s = .next { s with resp := s.resp ++ [⟨.ok, 0⟩] })

/-- 40_checksum.md section 3 (R111): a message followed by its check leaves residue 0 for W = 9, and not in
general below. -/
def Obligations.ResidueIsZeroForWidthNine : Prop :=
  (∀ (g : BitVec 9) (bs : Bytes), g.msb = true → crc 9 g (bs ++ [(crc 9 g bs).setWidth 8]) = 0) ∧
  crc 8 0xA7 [0x41, 0x42, 0x77] = 0x79

/-- 40_checksum.md section 3 (R112, whose burst condition the spec marks as general knowledge): parity
changes when exactly one bit does; a CRC whose generator has constant term 1 changes when the changed bits
lie within W-1 consecutive positions. -/
def Obligations.ChecksDetectFlipsAndShortBursts : Prop :=
  (∀ (a b : Bytes) (k : Nat), k < (bitstream a).length → a.length = b.length →
    (∀ j, (bitstream a)[j]? = (bitstream b)[j]? ↔ j ≠ k) → parity a ≠ parity b) ∧
  ∀ (w : Nat) (g : BitVec w) (a b : Bytes) (k : Nat), 2 ≤ w → g.msb = true → g.getLsbD 0 = true →
    a.length = b.length → a ≠ b →
    (∀ j, j < k ∨ k + (w - 1) ≤ j → (bitstream a)[j]? = (bitstream b)[j]?) → crc w g a ≠ crc w g b

/-- 40_checksum.md section 2 (R107, R105): CHK_COMPUTE answers the parity bit or the CRC of its bytes,
zero-extended, as CHK_KIND selects, and changes nothing else. -/
def Obligations.ChkComputeAnswersTheCheckByte : Prop :=
  ∀ (d : Bytes) (s : State),
    (s.ctrl[0] = false → exec (.chkCompute d) s =
      .next { s with resp := s.resp ++ [⟨.ok, (parity d).setWidth 32⟩] }) ∧
    (s.ctrl[0] = true → crccfgLegal s.crccfg = true → exec (.chkCompute d) s =
      .next { s with resp := s.resp ++
        [⟨.ok, (crc (crcWidth s.crccfg) ((crcPoly s.crccfg).setWidth (crcWidth s.crccfg)) d).setWidth 32⟩] })

/-- 40_checksum.md sections 1 and 2 (R106, R108): CHK_VERIFY answers 1 when C is the check byte of its bytes,
compared whole, and 0 otherwise; C is the check byte exactly when CHK_COMPUTE of the same bytes answers it;
nothing else changes. -/
def Obligations.ChkVerifyComparesTheWholeCheckByte : Prop :=
  ∀ (c : Byte) (d : Bytes) (s : State),
    (checkByte s.ctrl s.crccfg d = c →
      exec (.chkVerify c d) s = .next { s with resp := s.resp ++ [⟨.ok, 1⟩] }) ∧
    (checkByte s.ctrl s.crccfg d ≠ c →
      exec (.chkVerify c d) s = .next { s with resp := s.resp ++ [⟨.ok, 0⟩] }) ∧
    (checkByte s.ctrl s.crccfg d = c ↔
      exec (.chkCompute d) s = .next { s with resp := s.resp ++ [⟨.ok, c.setWidth 32⟩] }) ∧
    ∀ r : Word, exec (.chkCompute d) s = .next { s with resp := s.resp ++ [⟨.ok, r⟩] } →
      exec (.chkVerify c d) s = .next { s with resp := s.resp ++ [⟨.ok, if r = c.setWidth 32 then 1 else 0⟩] }

/-! ### Framer and SEND -/

/-- 41_framer.md section 1 (R123): the sub-frames of a payload put together are the payload; an empty
payload gives one empty one; else there are ceil(n / M), all of length M but the last, which has the rest
and is not empty. -/
def Obligations.SubframesPartitionThePayload : Prop :=
  ∀ (p : Bytes) (m : Nat), 1 ≤ m →
    (subframes p m).flatten = p ∧ (p = [] → subframes p m = [[]]) ∧
    (p ≠ [] → (subframes p m).length = (p.length + m - 1) / m ∧
      (∀ c ∈ (subframes p m).dropLast, c.length = m) ∧
      ∃ last, (subframes p m).getLast? = some last ∧ last ≠ [] ∧
        last.length = p.length - ((p.length + m - 1) / m - 1) * m)

/-- 41_framer.md section 1 (R130): a wire frame's length is 2, its content's length and one for each byte of
the stuff set (R120). -/
def Obligations.WireFrameLengthCountsStuffedBytes : Prop :=
  ∀ (ctrl tags : Word) (content : Bytes),
    (wireFrame ctrl tags content).length = 2 + content.length + content.countP (fun b =>
      b == tagStart tags || b == tagStop tags || b == tagEsc tags || (ctrl[1] && b == tagAck tags)) ∧
    2 + content.length ≤ (wireFrame ctrl tags content).length ∧
    (wireFrame ctrl tags content).length ≤ 2 + 2 * content.length

/-- 41_framer.md section 1 (R128): with distinct tags the scan of a wire frame ends at its last byte and
recovers exactly its content, whatever follows it and whichever stuff set the sender used. -/
def Obligations.ScanRecoversWireFrameContent : Prop :=
  ∀ (ctrl tags : Word) (content rest : Bytes), tagsLegal tags = true →
    scan tags (wireFrame ctrl tags content ++ rest) = ⟨[], rest, some content⟩

/-- 41_framer.md section 2 (R126, R124): with ARQ off SEND appends one TX entry for each sub-frame, in order,
answers 1, and ignores `now`. -/
def Obligations.SendWithoutArqTransmitsEverySubframe : Prop :=
  ∀ (d : Bytes) (now : Word) (s : State), s.ctrl[1] = false →
    exec (.send d now) s = .next { s with
      tx := s.tx ++ (subframes d (maxFrameSize s.maxframe)).map (fun c =>
        [tagStart s.tags] ++ stuff s.ctrl s.tags (c ++ [checkByte s.ctrl s.crccfg c]) ++ [tagStop s.tags])
      resp := s.resp ++ [⟨.ok, 1⟩] }

/-- 43_arq.md section 2 (R171, R125): an ARQ SEND in Idle transmits one frame with the sequence byte SFN,
stores it, records the time and enters AwaitingAck; SFN is unchanged. -/
def Obligations.ArqSendFromIdleTransmitsAndStores : Prop :=
  ∀ (p : Bytes) (now : Word) (s : State), s.ctrl[1] = true → s.wait = 0 →
    let q := p ++ [s.sfn.setWidth 8]
    let f := [tagStart s.tags] ++ stuff s.ctrl s.tags (q ++ [checkByte s.ctrl s.crccfg q]) ++ [tagStop s.tags]
    exec (.send p now) s = .next { s with
      tx := s.tx ++ [f], resend := f, sentTs := now, wait := 1, resp := s.resp ++ [⟨.ok, 1⟩] }

/-- R172: an ARQ SEND while AwaitingAck answers 0 with status OK; nothing is transmitted and no state
changes. -/
def Obligations.ArqSendWhileAwaitingIsRefused : Prop :=
  ∀ (p : Bytes) (now : Word) (s : State), s.ctrl[1] = true → s.wait = 1 →
    exec (.send p now) s = .next { s with resp := s.resp ++ [⟨.ok, 0⟩] }

/-! ### Deframer -/

/-- 42_deframer.md section 1 (R140): RX_PUSH appends all of its bytes and answers their number, or, where they
do not fit in a finite RXBUF_CAP, reports RX_OVERFLOW and appends none. -/
def Obligations.RxPushAppendsAllOrNothing : Prop :=
  ∀ (d : Bytes) (s : State),
    ((∀ c, s.rxbufCap = some c → s.rxbuf.length + d.length ≤ c) → exec (.rxPush d) s =
      .next { s with rxbuf := s.rxbuf ++ d, resp := s.resp ++ [⟨.ok, BitVec.ofNat 32 d.length⟩] }) ∧
    (∀ c, s.rxbufCap = some c → c < s.rxbuf.length + d.length → exec (.rxPush d) s =
      .next { s with resp := s.resp ++ [⟨.rxOverflow, 0⟩] })

/-- R143: the scan is the state machine over buffer positions. -/
def Obligations.ScanFollowsTheBufferPositions : Prop :=
  ∀ (tags : Word) (rxbuf : Bytes), scan tags rxbuf = scanByPositions tags rxbuf

/-- R144: Seeking-Start removes every byte before the first START; without a START the buffer is left empty
and DEFRAME answers INCOMPLETE. -/
def Obligations.SeekingStartDiscardsEverythingBeforeStart : Prop :=
  ∀ (s : State) (garbage : Bytes), tagStart s.tags ∉ garbage →
    exec .deframe { s with rxbuf := garbage } =
      .next { s with rxbuf := [], resp := s.resp ++ [⟨.ok, 1⟩] } ∧
    ∀ rest : Bytes, exec .deframe { s with rxbuf := garbage ++ tagStart s.tags :: rest } =
      exec .deframe { s with rxbuf := tagStart s.tags :: rest }

/-- 42_deframer.md section 2 (R142, R152): DEFRAME is its loop: an incomplete scan ends it with 1, a damaged
frame emits its event and the rest is scanned, and the other outcomes end it with their codes. -/
def Obligations.DeframeUnfoldsItsLoop : Prop :=
  ∀ s : State, let t := applyScan (scan s.tags s.rxbuf) s
    ((scan s.tags s.rxbuf).content = none → exec .deframe s = .next { t with resp := s.resp ++ [⟨.ok, 1⟩] }) ∧
    ∀ acc u r, (scan s.tags s.rxbuf).content = some acc → resolveFrame acc t = (u, r) →
      (∀ why, r = .damaged why → exec .deframe s = exec .deframe (emit (.frameDamaged why) u)) ∧
      (r = .payload → exec .deframe s = .next { u with resp := s.resp ++ [⟨.ok, 0⟩] }) ∧
      (r = .ackConsumed → exec .deframe s = .next { u with resp := s.resp ++ [⟨.ok, 2⟩] }) ∧
      (r = .duplicate → exec .deframe s = .next { u with resp := s.resp ++ [⟨.ok, 3⟩] })

/-- 42_deframer.md section 3 (R150, R152): with ARQ off a complete frame with empty content is damaged SHORT,
one whose last byte is not the check byte of the rest is damaged CHECK, and else its data is delivered. -/
def Obligations.PlainFramesAreVerifiedAndDelivered : Prop :=
  ∀ (s : State) (ev : List Event) (buf acc : Bytes), s.ctrl[1] = false →
    scan s.tags s.rxbuf = ⟨ev, buf, some acc⟩ →
    (acc = [] → exec .deframe s = exec .deframe
      { s with rxbuf := buf, event := s.event ++ ev ++ [.frameDamaged .short] }) ∧
    ∀ data c, acc = data ++ [c] →
      (checkByte s.ctrl s.crccfg data ≠ c → exec .deframe s = exec .deframe
        { s with rxbuf := buf, event := s.event ++ ev ++ [.frameDamaged .check] }) ∧
      (checkByte s.ctrl s.crccfg data = c → exec .deframe s = .next { s with
        rxbuf := buf, deliver := s.deliver ++ [data], event := s.event ++ ev ++ [.frameDelivered]
        resp := s.resp ++ [⟨.ok, 0⟩] })

/-- 42_deframer.md section 3 and 43_arq.md section 3 (R151, R175): with ARQ on a complete frame that is no
acknowledgment is SHORT below two bytes, damaged CHECK, or acknowledged; it is delivered and ERFN inverted
exactly when its whole sequence byte is that of ERFN. -/
def Obligations.ArqDataFramesAreAcknowledgedAndDeliveredInOrder : Prop :=
  ∀ (s : State) (ev : List Event) (buf acc : Bytes), s.ctrl[1] = true → acc ≠ [tagAck s.tags] →
    scan s.tags s.rxbuf = ⟨ev, buf, some acc⟩ →
    (acc.length < 2 → exec .deframe s = exec .deframe
      { s with rxbuf := buf, event := s.event ++ ev ++ [.frameDamaged .short] }) ∧
    ∀ p seq c, acc = p ++ [seq, c] →
      (checkByte s.ctrl s.crccfg (p ++ [seq]) ≠ c → exec .deframe s = exec .deframe
        { s with rxbuf := buf, event := s.event ++ ev ++ [.frameDamaged .check] }) ∧
      (checkByte s.ctrl s.crccfg (p ++ [seq]) = c → seq = s.erfn.setWidth 8 → exec .deframe s = .next { s with
        rxbuf := buf, erfn := s.erfn ^^^ 1, tx := s.tx ++ [[tagStart s.tags, tagAck s.tags, tagStop s.tags]]
        deliver := s.deliver ++ [p], event := s.event ++ ev ++ [.ackSent, .frameDelivered]
        resp := s.resp ++ [⟨.ok, 0⟩] }) ∧
      (checkByte s.ctrl s.crccfg (p ++ [seq]) = c → seq ≠ s.erfn.setWidth 8 → exec .deframe s = .next { s with
        rxbuf := buf, tx := s.tx ++ [[tagStart s.tags, tagAck s.tags, tagStop s.tags]]
        event := s.event ++ ev ++ [.ackSent], resp := s.resp ++ [⟨.ok, 3⟩] })

/-- R173: an acknowledgment received while AwaitingAck, whichever frame it answers (R176), emits ACK_RECEIVED,
clears WAIT and RESEND and inverts SFN; SENT_TS stays. -/
def Obligations.AcknowledgmentCompletesTheOutstandingFrame : Prop :=
  ∀ (s : State) (ev : List Event) (buf : Bytes), s.ctrl[1] = true → s.wait = 1 →
    scan s.tags s.rxbuf = ⟨ev, buf, some [tagAck s.tags]⟩ →
    exec .deframe s = .next { s with rxbuf := buf, wait := 0, sfn := s.sfn ^^^ 1, resend := []
                                     event := s.event ++ ev ++ [.ackReceived], resp := s.resp ++ [⟨.ok, 2⟩] }

/-- R174: an acknowledgment in Idle changes no ARQ state; the frame is consumed, ACK_RECEIVED emitted and
ACK_CONSUMED answered. -/
def Obligations.AcknowledgmentInIdleChangesNoArqState : Prop :=
  ∀ (s : State) (ev : List Event) (buf : Bytes), s.ctrl[1] = true → s.wait = 0 →
    scan s.tags s.rxbuf = ⟨ev, buf, some [tagAck s.tags]⟩ →
    exec .deframe s = .next { s with rxbuf := buf, event := s.event ++ ev ++ [.ackReceived]
                                     resp := s.resp ++ [⟨.ok, 2⟩] }

/-- 42_deframer.md sections 2 and 4 (R142, R153): DEFRAME always completes with one of its four outcomes; it
removes bytes from the front of RXBUF only, delivers at most one payload, sends at most one acknowledgment,
and writes nothing else: the configuration and SENT_TS stay, SFN, WAIT and RESEND change only with outcome 2,
ERFN only with outcome 0, and with ARQ off none of them and no TX entry. -/
def Obligations.DeframeCompletesWithinItsFrame : Prop :=
  ∀ s : State, ∃ (t : State) (r : Word), exec .deframe s = .next t ∧
    t.resp = s.resp ++ [⟨.ok, r⟩] ∧ r.toNat < 4 ∧
    t.rxbuf <:+ s.rxbuf ∧ s.event <+: t.event ∧
    ((r = 0 ∧ ∃ p, t.deliver = s.deliver ++ [p]) ∨ (r ≠ 0 ∧ t.deliver = s.deliver)) ∧
    (t.tx = s.tx ∨ (s.ctrl[1] = true ∧ (r = 0 ∨ r = 3) ∧
      t.tx = s.tx ++ [[tagStart s.tags, tagAck s.tags, tagStop s.tags]])) ∧
    (r = 2 ∨ (t.sfn = s.sfn ∧ t.wait = s.wait ∧ t.resend = s.resend)) ∧
    (r = 0 ∨ t.erfn = s.erfn) ∧
    (s.ctrl[1] = true ∨ (r.toNat < 2 ∧ t.erfn = s.erfn)) ∧
    t.ctrl = s.ctrl ∧ t.tags = s.tags ∧ t.maxframe = s.maxframe ∧ t.crccfg = s.crccfg ∧
    t.timeout = s.timeout ∧ t.sentTs = s.sentTs ∧ t.rxbufCap = s.rxbufCap ∧ t.cmd = s.cmd

/-- 42_deframer.md section 4 (R154, R155): after INCOMPLETE the buffer is empty or begins with a START whose
frame has no STOP yet, and a second DEFRAME answers INCOMPLETE again and changes nothing. -/
def Obligations.IncompleteLeavesAPartialFrameAndIsStable : Prop :=
  ∀ (s t : State), exec .deframe s = .next t → t.resp = s.resp ++ [⟨.ok, 1⟩] →
    (t.rxbuf = [] ∨ ∃ tail, t.rxbuf = tagStart s.tags :: tail ∧ scan s.tags t.rxbuf = ⟨[], t.rxbuf, none⟩) ∧
    exec .deframe t = .next { t with resp := t.resp ++ [⟨.ok, 1⟩] }

/-- 42_deframer.md section 2 (R145, R149): a wire frame cut anywhere, inside an escape too, is INCOMPLETE and
stays in RXBUF as it is, for later bytes to extend. -/
def Obligations.CutWireFrameWaitsInTheBuffer : Prop :=
  ∀ (s : State) (ctrl : Word) (content pre post : Bytes), tagsLegal s.tags = true →
    wireFrame ctrl s.tags content = pre ++ post → pre ≠ [] → post ≠ [] → s.rxbuf = pre →
    exec .deframe s = .next { s with resp := s.resp ++ [⟨.ok, 1⟩] }

/-- 42_deframer.md section 2 (R147; 90_conflicts.md C5): a START inside a frame drops what was accumulated,
emits FRAME_DAMAGED(RESYNC), and the scan goes on from the new START, which stays in RXBUF. -/
def Obligations.NewStartResynchronizes : Prop :=
  ∀ (s : State) (ctrl : Word) (cut rest : Bytes), tagsLegal s.tags = true →
    exec .deframe { s with rxbuf := [tagStart s.tags] ++ stuff ctrl s.tags cut ++ tagStart s.tags :: rest } =
      exec .deframe { s with rxbuf := tagStart s.tags :: rest
                             event := s.event ++ [.frameDamaged .resync] }

/-! ### Two ends of a link -/

/-- 42_deframer.md section 4 (R156), ARQ off: what SEND transmits, pushed into an empty buffer of a block with
the same tags and check, is delivered sub-frame by sub-frame, and then DEFRAME answers INCOMPLETE; the
deliveries put together are the payload. -/
def Obligations.PlainLinkDeliversEverySubframe : Prop :=
  ∀ (a b u : State) (p : Bytes) (now : Word), configLegal a = true → a.ctrl[1] = false →
    b.ctrl = a.ctrl → b.tags = a.tags → b.crccfg = a.crccfg →
    exec (.send p now) a = .next u → b.rxbuf = (u.tx.drop a.tx.length).flatten →
    ∃ v, execAll (List.replicate (subframes p (maxFrameSize a.maxframe)).length .deframe) b = .next v ∧
      v = { b with
        rxbuf := []
        deliver := b.deliver ++ subframes p (maxFrameSize a.maxframe)
        event := b.event ++ List.replicate (subframes p (maxFrameSize a.maxframe)).length .frameDelivered
        resp := b.resp ++ List.replicate (subframes p (maxFrameSize a.maxframe)).length ⟨.ok, 0⟩ } ∧
      exec .deframe v = .next { v with resp := v.resp ++ [⟨.ok, 1⟩] } ∧
      (subframes p (maxFrameSize a.maxframe)).flatten = p

/-- 42_deframer.md section 4 and 43_arq.md (R156, R171, R173, R175), ARQ on: the frame of an accepted SEND is
delivered once and acknowledged by a block that expects its sequence number, and the acknowledgment returns
the sender to Idle with SFN inverted. -/
def Obligations.ArqLinkDeliversAndAcknowledges : Prop :=
  ∀ (a b u v : State) (p : Bytes) (now : Word), configLegal a = true → a.ctrl[1] = true → a.wait = 0 →
    b.ctrl = a.ctrl → b.tags = a.tags → b.crccfg = a.crccfg → b.erfn = a.sfn →
    exec (.send p now) a = .next u → b.rxbuf = (u.tx.drop a.tx.length).flatten → exec .deframe b = .next v →
    v = { b with
      rxbuf := [], erfn := b.erfn ^^^ 1, tx := b.tx ++ [ackFrame b.tags], deliver := b.deliver ++ [p]
      event := b.event ++ [.ackSent, .frameDelivered], resp := b.resp ++ [⟨.ok, 0⟩] } ∧
    exec .deframe { u with rxbuf := (v.tx.drop b.tx.length).flatten } = .next { u with
      rxbuf := [], wait := 0, sfn := a.sfn ^^^ 1, resend := [], event := u.event ++ [.ackReceived]
      resp := u.resp ++ [⟨.ok, 2⟩] }

/-- 43_arq.md section 5 (R182): a retransmission is the same frame byte for byte, and a receiver that gets both
copies delivers the payload once and acknowledges twice. -/
def Obligations.RetransmissionIsDeliveredOnlyOnce : Prop :=
  ∀ (a b u v : State) (p : Bytes) (now later : Word), configLegal a = true → a.ctrl[1] = true →
    a.wait = 0 → a.timeout < later - now →
    b.ctrl = a.ctrl → b.tags = a.tags → b.crccfg = a.crccfg → b.erfn = a.sfn →
    exec (.send p now) a = .next u → exec (.tick later) u = .next v →
    (∃ f, u.tx = a.tx ++ [f] ∧ v.tx = a.tx ++ [f, f] ∧ v.sfn = a.sfn ∧ v.wait = 1 ∧ v.resend = f ∧
      v.sentTs = later ∧ v.event = a.event ++ [.timeoutRetransmit]) ∧
    (b.rxbuf = (v.tx.drop a.tx.length).flatten → execAll [.deframe, .deframe] b = .next { b with
      rxbuf := [], erfn := b.erfn ^^^ 1, tx := b.tx ++ [ackFrame b.tags, ackFrame b.tags]
      deliver := b.deliver ++ [p], event := b.event ++ [.ackSent, .frameDelivered, .ackSent]
      resp := b.resp ++ [⟨.ok, 0⟩, ⟨.ok, 3⟩] })

/-- 70_reset_and_hazards.md section 3 (R248), for every capacity that holds an acknowledgment: a second
acknowledgment of an earlier frame is taken for the next one. That frame is lost: the sender is Idle again with
the old SFN and an empty RESEND, and no TICK transmits it again. -/
def Obligations.StaleAcknowledgmentLosesTheNextFrame : Prop :=
  ∀ (s : State) (p : Bytes) (t1 t2 : Word), tagsLegal s.tags = true → s.ctrl[1] = true → s.wait = 1 →
    withinCapacity s.rxbufCap 3 = true → s.rxbuf = ackFrame s.tags →
    execAll [.deframe, .send p t1, .rxPush (ackFrame s.tags), .deframe, .tick t2] s = .next { s with
      wait := 0, resend := [], sentTs := t1, rxbuf := []
      tx := s.tx ++ [wireFrame s.ctrl s.tags (contentArq s.ctrl s.crccfg p (s.sfn ^^^ 1))]
      event := s.event ++ [.ackReceived, .ackReceived]
      resp := s.resp ++ [⟨.ok, 2⟩, ⟨.ok, 1⟩, ⟨.ok, 3⟩, ⟨.ok, 2⟩, ⟨.ok, 0⟩] }

/-- 90_conflicts.md C6, its two examples (95_test_vectors.md section 2.6), by which a flip into STOP can go
undetected: SEND of `00 7C` transmits `7B 00 7C 01 7D` in parity mode and `7B 00 7C 55 7D` in CRC mode; with
bit 0 of byte 2 flipped, which makes the data byte 7C a STOP, each is delivered as the empty payload with no
damage reported, and the next DEFRAME drops the rest. The tags are those of reset, whose byte values the spec
takes from general knowledge (entry 14). -/
def Obligations.ExampleFlipsIntoStopAreDeliveredUndetected : Prop :=
  ∀ (ctrl : Word) (f : Bytes),
    (ctrl, f) ∈ [(0, [0x7B, 0x00, 0x7C, 0x01, 0x7D]), (1, [0x7B, 0x00, 0x7C, 0x55, 0x7D])] →
    (∀ now, exec (.send [0x00, 0x7C] now) { State.reset with ctrl := ctrl } =
      .next { State.reset with ctrl := ctrl, tx := [f], resp := [⟨.ok, 1⟩] }) ∧
    f.modify 2 (· ^^^ 0x01) = [0x7B, 0x00, tagStop State.reset.tags] ++ f.drop 3 ∧
    execAll [.deframe, .deframe] { State.reset with ctrl := ctrl, rxbuf := f.modify 2 (· ^^^ 0x01) } =
      .next { State.reset with ctrl := ctrl, deliver := [[]], event := [.frameDelivered]
                               resp := [⟨.ok, 0⟩, ⟨.ok, 1⟩] }

/-- 70_reset_and_hazards.md section 3 (R250): a finite RXBUF filled by one incomplete frame is stuck: however
many DEFRAMEs and non-empty RX_PUSHes follow, each answers INCOMPLETE or RX_OVERFLOW and nothing changes. -/
def Obligations.FullBufferWithPartialFrameIsStuck : Prop :=
  ∀ (is : List Instr) (s : State), s.rxbufCap = some s.rxbuf.length →
    scan s.tags s.rxbuf = ⟨[], s.rxbuf, none⟩ →
    (∀ i ∈ is, i = .deframe ∨ ∃ b d, i = .rxPush (b :: d)) →
    execAll is s = .next { s with
      resp := s.resp ++ is.map (fun i => if i = .deframe then ⟨.ok, 1⟩ else ⟨.rxOverflow, 0⟩) }

/-! ### Timer -/

/-- 43_arq.md section 4 (R177, R178): TICK retransmits exactly when ARQ is on, a frame is outstanding and the
time since SENT_TS, modulo 2^32, exceeds TIMEOUT, and else does nothing; both answer with status OK. -/
def Obligations.TickRetransmitsExactlyAfterTimeout : Prop :=
  ∀ (now : Word) (s : State),
    (s.ctrl[1] = true ∧ s.wait = 1 ∧
        s.timeout.toNat < (now.toNat + 2 ^ 32 - s.sentTs.toNat) % 2 ^ 32 →
      exec (.tick now) s = .next { s with
        tx := s.tx ++ [s.resend], sentTs := now, event := s.event ++ [.timeoutRetransmit]
        resp := s.resp ++ [⟨.ok, 1⟩] }) ∧
    (s.ctrl[1] = false ∨ s.wait = 0 ∨
        (now.toNat + 2 ^ 32 - s.sentTs.toNat) % 2 ^ 32 ≤ s.timeout.toNat →
      exec (.tick now) s = .next { s with resp := s.resp ++ [⟨.ok, 0⟩] })

/-- 43_arq.md section 4 (R180): retransmission is unbounded: from AwaitingAck, with a TIMEOUT below its
largest value, any number of TICKs can each transmit the stored frame again, and the block is still in
AwaitingAck. -/
def Obligations.RetransmissionHasNoCap : Prop :=
  ∀ (n : Nat) (s : State), s.ctrl[1] = true → s.wait = 1 → s.timeout ≠ 0xFFFFFFFF →
    ∃ (times : List Word) (t : State), times.length = n ∧ execAll (times.map .tick) s = .next t ∧
      t = { s with
        tx := s.tx ++ List.replicate n s.resend, sentTs := t.sentTs
        event := s.event ++ List.replicate n .timeoutRetransmit
        resp := s.resp ++ List.replicate n ⟨.ok, 1⟩ }

/-! ### Control commands -/

/-- 44_control.md section 1 (R200): what REG_RD answers for every register number; it changes nothing. -/
def Obligations.RegReadAnswersEveryRegister : Prop :=
  ∀ s : State,
    (∀ r v, (r, v) ∈ [((0x00 : Byte), s.ctrl), (0x01, s.tags), (0x02, s.maxframe), (0x03, s.crccfg),
        (0x04, s.timeout), (0x06, s.sentTs), (0x07, BitVec.ofNat 32 (min s.rxbuf.length 0xFFFFFFFF)),
        (0x08, BitVec.ofNat 32 (min s.resend.length 0xFFFFFFFF)),
        (0x05, BitVec.ofNat 32 (4 * s.wait.toNat + 2 * s.erfn.toNat + s.sfn.toNat))] →
      exec (.regRd r) s = .next { s with resp := s.resp ++ [⟨.ok, v⟩] }) ∧
    ∀ r : Byte, 0x09 ≤ r.toNat → exec (.regRd r) s = .next { s with resp := s.resp ++ [⟨.badReg, 0⟩] }

/-- R202: CTRL takes a value whose bits [31:2] are 0 and refuses every other with BAD_CONFIG; the ARQ state
stays. -/
def Obligations.CtrlWriteIsChecked : Prop :=
  ∀ (v : Word) (s : State),
    (v.toNat < 4 → exec (.regWr 0x00 v) s = .next { s with ctrl := v, resp := s.resp ++ [⟨.ok, 0⟩] }) ∧
    (4 ≤ v.toNat → exec (.regWr 0x00 v) s = .next { s with resp := s.resp ++ [⟨.badConfig, 0⟩] })

/-- R203: TAGS takes four pairwise distinct bytes and refuses every other value with BAD_CONFIG. -/
def Obligations.TagsWriteIsChecked : Prop :=
  ∀ (v : Word) (s : State),
    ([v.extractLsb' 0 8, v.extractLsb' 8 8, v.extractLsb' 16 8, v.extractLsb' 24 8].Nodup →
      exec (.regWr 0x01 v) s = .next { s with tags := v, resp := s.resp ++ [⟨.ok, 0⟩] }) ∧
    (¬ [v.extractLsb' 0 8, v.extractLsb' 8 8, v.extractLsb' 16 8, v.extractLsb' 24 8].Nodup →
      exec (.regWr 0x01 v) s = .next { s with resp := s.resp ++ [⟨.badConfig, 0⟩] })

/-- R204: MAXFRAME takes 1 to 65535 and refuses every other value with BAD_CONFIG; with a value it takes, every
sub-frame of a non-empty payload holds a data byte. -/
def Obligations.MaxframeWriteIsChecked : Prop :=
  ∀ (v : Word) (s : State),
    (1 ≤ v.toNat ∧ v.toNat ≤ 65535 →
      exec (.regWr 0x02 v) s = .next { s with maxframe := v, resp := s.resp ++ [⟨.ok, 0⟩] } ∧
      ∀ p : Bytes, p ≠ [] → [] ∉ subframes p (maxFrameSize v)) ∧
    (v.toNat = 0 ∨ 65535 < v.toNat →
      exec (.regWr 0x02 v) s = .next { s with resp := s.resp ++ [⟨.badConfig, 0⟩] })

/-- R205: CRCCFG takes a width of 2 to 9 with a generator below 2^W whose leading bit is 1 and reserved bits 0,
and refuses every other value with BAD_CONFIG; the rule's four examples. -/
def Obligations.CrccfgWriteIsChecked : Prop :=
  (∀ (w g : Nat) (s : State), 2 ≤ w → w ≤ 9 → 2 ^ (w - 1) ≤ g → g < 2 ^ w →
    exec (.regWr 0x03 (BitVec.ofNat 32 (w * 65536 + g))) s =
      .next { s with crccfg := BitVec.ofNat 32 (w * 65536 + g), resp := s.resp ++ [⟨.ok, 0⟩] }) ∧
  (∀ (v : Word) (s : State),
    (∀ w g : Nat, 2 ≤ w → w ≤ 9 → 2 ^ (w - 1) ≤ g → g < 2 ^ w → v.toNat ≠ w * 65536 + g) →
    exec (.regWr 0x03 v) s = .next { s with resp := s.resp ++ [⟨.badConfig, 0⟩] }) ∧
  crccfgLegal 0x000800A7 = true ∧ crccfgLegal 0x000901A7 = true ∧ crccfgLegal 0x000900A7 = false ∧
  crccfgLegal 0x000801A7 = false

/-- R206: TIMEOUT takes every 32-bit value with no check. -/
def Obligations.TimeoutWriteIsUnchecked : Prop :=
  ∀ (v : Word) (s : State),
    exec (.regWr 0x04 v) s = .next { s with timeout := v, resp := s.resp ++ [⟨.ok, 0⟩] }

/-- R207: a write of a read-only register, and a read or write of an unmapped one, fails BAD_REG and changes
nothing. -/
def Obligations.ReadOnlyAndUnmappedRegistersAnswerBadReg : Prop :=
  ∀ (r : Byte) (s : State),
    (0x05 ≤ r.toNat → ∀ v, exec (.regWr r v) s = .next { s with resp := s.resp ++ [⟨.badReg, 0⟩] }) ∧
    (0x09 ≤ r.toNat → exec (.regRd r) s = .next { s with resp := s.resp ++ [⟨.badReg, 0⟩] })

/-- R241: SOFT_RESET returns the ARQ state and RXBUF to their reset values and keeps the configuration, and
everything else. -/
def Obligations.SoftResetClearsTheLinkState : Prop :=
  ∀ s : State, exec .softReset s = .next { s with
    sfn := 0, erfn := 0, wait := 0, sentTs := 0, resend := [], rxbuf := [], resp := s.resp ++ [⟨.ok, 0⟩] }

/-- 70_reset_and_hazards.md section 1 (R240, R242; the TAGS bytes rest on the spec's general knowledge G1, and
that no command is pending on the model's entry 7): what power-on reset leaves, at State.reset and from every
state, whose ports it keeps. -/
def Obligations.PowerOnResetSetsEveryRegister : Prop :=
  (∀ s : State, powerOnReset s = { s with
    ctrl := 0x00000001, tags := 0x405C7D7B, maxframe := 0x00000008, crccfg := 0x000800A7, timeout := 0x00000064
    sfn := 0, erfn := 0, wait := 0, sentTs := 0, resend := [], rxbuf := [], cmd := [] }) ∧
  powerOnReset State.reset = State.reset ∧
  ∀ r ∈ [(0x05 : Byte), 0x06, 0x07, 0x08],
    exec (.regRd r) State.reset = .next { State.reset with resp := [⟨.ok, 0⟩] }

/-! ### The whole machine -/

/-- The invariant holds after power-on reset, whatever the open RXBUF_CAP is (10_state.md section 5,
70_reset_and_hazards.md section 1, 00_scope.md section 3; entry 5). -/
def Obligations.InvariantHoldsAtReset : Prop := invariant State.reset = true

/-- 10_state.md section 5 (R43) with R45, R46 and R202 to R205: every step from a state with legal
configuration, WAIT = 1 exactly when RESEND is not empty, RXBUF within its capacity and sound responses leads
to such a state. -/
def Obligations.EveryStepKeepsTheInvariant : Prop :=
  ∀ s t : State, invariant s = true → step s = .next t → invariant t = true

/-- 60_exceptions.md section 1 (R220): no state faults or is refused: every step answers a next state. -/
def Obligations.EveryStepAnswersANextState : Prop := ∀ s : State, ∃ t, step s = .next t

/-- 10_state.md section 6 and 60_exceptions.md section 1 (R45, R221, R223): every command answers exactly one
response and leaves the port to the next command; one that is not OK has result 0 and changes nothing else,
and only REG_RD, REG_WR and RX_PUSH have one, each with its own status. -/
def Obligations.EveryCommandAnswersOnceAndFailuresHaveNoEffect : Prop :=
  ∀ (i : Instr) (s : State), ∃ (t : State) (r : Response), exec i s = .next t ∧ t.resp = s.resp ++ [r] ∧
    t.cmd = s.cmd ∧
    (r.status ≠ .ok → r.result = 0 ∧ t = { s with resp := s.resp ++ [r] } ∧
      ((∃ x, i = .regRd x ∧ r.status = .badReg) ∨
       (∃ x v, i = .regWr x v ∧ (r.status = .badReg ∨ r.status = .badConfig)) ∨
       (∃ d, i = .rxPush d ∧ r.status = .rxOverflow)))

/-- 10_state.md section 3 (R37): no step changes or withdraws an entry of TX, DELIVER or EVENT; TX grows only
in SEND, DEFRAME and TICK, DELIVER only in DEFRAME, EVENT only in DEFRAME and TICK. -/
def Obligations.OutputPortsOnlyGrow : Prop :=
  ∀ s t : State, step s = .next t → portsExtend s t ∧
    ∀ i rest, decode s.cmd = .command i rest →
      (t.tx ≠ s.tx → (∃ d now, i = .send d now) ∨ i = .deframe ∨ ∃ now, i = .tick now) ∧
      (t.deliver ≠ s.deliver → i = .deframe) ∧
      (t.event ≠ s.event → i = .deframe ∨ ∃ now, i = .tick now)

/-- 10_state.md section 1 and 43_arq.md section 4 (R22, R181): with ARQ off no command but REG_RD, SOFT_RESET
and reset reads or writes the ARQ state: two blocks that differ in it only still do, by the same difference,
and it stays as it was. -/
def Obligations.ArqStateIsUnusedWhileArqIsOff : Prop :=
  ∀ (i : Instr) (a s t : State), s.ctrl[1] = false → (∀ r, i ≠ .regRd r) → i ≠ .softReset →
    exec i s = .next t → withArqOf s t = t ∧ exec i (withArqOf a s) = .next (withArqOf a t)

/-- 10_state.md section 2 and 43_arq.md section 1 (R31 to R33, R170): apart from SOFT_RESET, SFN changes only
when DEFRAME takes an acknowledgment while AwaitingAck, ERFN only when it takes an in-order frame, WAIT rises
only in an accepted SEND and falls only with an acknowledgment. -/
def Obligations.ArqBitsChangeOnlyByTheirRules : Prop :=
  ∀ (i : Instr) (s t : State), i ≠ .softReset → exec i s = .next t →
    (t.sfn ≠ s.sfn → i = .deframe ∧ s.ctrl[1] = true ∧ s.wait = 1 ∧ t.wait = 0 ∧ t.sfn = s.sfn ^^^ 1 ∧
      t.resp = s.resp ++ [⟨.ok, 2⟩]) ∧
    (t.erfn ≠ s.erfn → i = .deframe ∧ s.ctrl[1] = true ∧ t.erfn = s.erfn ^^^ 1 ∧
      t.resp = s.resp ++ [⟨.ok, 0⟩]) ∧
    (t.wait ≠ s.wait →
      (∃ d now, i = .send d now ∧ s.ctrl[1] = true ∧ s.wait = 0 ∧ t.wait = 1 ∧
        t.resp = s.resp ++ [⟨.ok, 1⟩]) ∨
      (i = .deframe ∧ s.ctrl[1] = true ∧ s.wait = 1 ∧ t.wait = 0 ∧ t.sfn = s.sfn ^^^ 1 ∧
        t.resp = s.resp ++ [⟨.ok, 2⟩]))

/-- 44_control.md section 1 and 10_state.md section 2 (R30, R201): only REG_WR changes a configuration register,
and then one; only RX_PUSH, DEFRAME and SOFT_RESET change RXBUF; no command changes the capacity. -/
def Obligations.ConfigurationAndBufferChangeOnlyByTheirCommands : Prop :=
  ∀ (i : Instr) (s t : State), exec i s = .next t →
    ((∀ r v, i ≠ .regWr r v) → t.ctrl = s.ctrl ∧ t.tags = s.tags ∧ t.maxframe = s.maxframe ∧
      t.crccfg = s.crccfg ∧ t.timeout = s.timeout) ∧
    ((∀ d, i ≠ .rxPush d) → i ≠ .deframe → i ≠ .softReset → t.rxbuf = s.rxbuf) ∧
    t.rxbufCap = s.rxbufCap ∧
    ∀ r v, i = .regWr r v → t.sfn = s.sfn ∧ t.erfn = s.erfn ∧ t.wait = s.wait ∧ t.resend = s.resend ∧
      t.sentTs = s.sentTs ∧ t.rxbuf = s.rxbuf ∧
      (readReg .ctrl t, readReg .tags t, readReg .maxframe t, readReg .crccfg t, readReg .timeout t) ∈
        [(s.ctrl, s.tags, s.maxframe, s.crccfg, s.timeout), (v, s.tags, s.maxframe, s.crccfg, s.timeout),
         (s.ctrl, v, s.maxframe, s.crccfg, s.timeout), (s.ctrl, s.tags, v, s.crccfg, s.timeout),
         (s.ctrl, s.tags, s.maxframe, v, s.timeout), (s.ctrl, s.tags, s.maxframe, s.crccfg, v)]

/-! ### Codes -/

/-- 60_exceptions.md sections 1 and 2 (R221, R225): the code of every status and of every event; no other code
is a status, and no other code is an event. -/
def Obligations.StatusAndEventCodesFollowTheirTables : Prop :=
  (statusCode .ok = 0x00 ∧ statusCode .illegalCmd = 0x01 ∧ statusCode .badReg = 0x02 ∧
    statusCode .badConfig = 0x03 ∧ statusCode .rxOverflow = 0x04 ∧
    ∀ c : Byte, (∃ st, statusCode st = c) ↔ c.toNat ≤ 0x04) ∧
  (eventCode .frameDelivered = 0x01 ∧ eventCode (.frameDamaged .check) = 0x02 ∧
    eventCode (.frameDamaged .short) = 0x03 ∧ eventCode (.frameDamaged .resync) = 0x04 ∧
    eventCode .ackSent = 0x05 ∧ eventCode .ackReceived = 0x06 ∧ eventCode .timeoutRetransmit = 0x07 ∧
    ∀ c : Byte, (∃ e, eventCode e = c) ↔ 0x01 ≤ c.toNat ∧ c.toNat ≤ 0x07)
end

