-- ==== Sys2Proof/Laws/Decode.lean ====
section
/-! SUPPORT. Words and bytes, the fields of a header, and what the decoder makes of a command's header. -/

namespace Sys2Proof

/-! ### Words and bytes -/

@[simp] theorem wordOfBytes_extract (w : Word) :
    wordOfBytes (w.extractLsb' 24 8) (w.extractLsb' 16 8) (w.extractLsb' 8 8) (w.extractLsb' 0 8) = w := by
  ext i hi
  simp only [wordOfBytes, BitVec.getElem_or, BitVec.getElem_shiftLeft, BitVec.getElem_setWidth,
    BitVec.getLsbD_extractLsb']
  interval_cases i <;> simp [BitVec.getLsbD_eq_getElem]

@[simp] theorem bytesOfWord_wordOfBytes (b3 b2 b1 b0 : Byte) :
    bytesOfWord (wordOfBytes b3 b2 b1 b0) = [b3, b2, b1, b0] := by
  simp only [bytesOfWord, List.cons.injEq, and_true]
  refine ⟨?_, ?_, ?_, ?_⟩ <;> ext i hi <;>
    simp only [wordOfBytes, BitVec.getElem_extractLsb', BitVec.getLsbD_or, BitVec.getLsbD_shiftLeft,
      BitVec.getLsbD_setWidth] <;>
    interval_cases i <;> simp [BitVec.getLsbD_eq_getElem]

@[simp] theorem bytesOfWord_length (w : Word) : (bytesOfWord w).length = 4 := rfl

/-! ### Header fields (R80) -/

/-- The word with the given fields. -/
theorem headerFields (opc arg : Byte) (len : BitVec 16) :
    let h := (opc.setWidth 32 <<< 24) ||| (arg.setWidth 32 <<< 16) ||| len.setWidth 32
    headerOpc h = opc ∧ headerArg h = arg ∧ headerLen h = len.toNat := by
  refine ⟨?_, ?_, congrArg BitVec.toNat ?_⟩ <;> ext i hi <;>
    simp only [headerOpc, headerArg, BitVec.getElem_extractLsb', BitVec.getLsbD_or, BitVec.getLsbD_shiftLeft,
      BitVec.getLsbD_setWidth] <;>
    interval_cases i <;> simp [BitVec.getLsbD_eq_getElem]

/-- A word is rebuilt from its fields. -/
theorem headerFields_eq (h : Word) :
    ((headerOpc h).setWidth 32 <<< 24) ||| ((headerArg h).setWidth 32 <<< 16) |||
      (BitVec.ofNat 16 (headerLen h)).setWidth 32 = h := by
  simp only [headerLen, BitVec.ofNat_toNat]
  ext i hi
  simp only [headerOpc, headerArg, BitVec.getElem_or, BitVec.getElem_shiftLeft, BitVec.getLsbD_setWidth,
    BitVec.getElem_setWidth, BitVec.getLsbD_extractLsb']
  interval_cases i <;> simp [BitVec.getLsbD_eq_getElem]

theorem opcodeCode_injective {a b : Opcode} (h : opcodeCode a = opcodeCode b) : a = b := by
  revert h
  cases a <;> cases b <;> decide

@[simp] theorem headerOpc_header (i : Instr) : headerOpc (header i) = opcodeCode (instrOpcode i) :=
  (headerFields _ _ _).1

@[simp] theorem headerArg_header (i : Instr) : headerArg (header i) = instrArg i := (headerFields _ _ _).2.1

theorem headerLen_header {i : Instr} (h : i.wellFormed = true) : headerLen (header i) = i.data.length := by
  have hle : i.data.length ≤ 65535 := of_decide_eq_true h
  refine (headerFields _ _ _).2.2.trans ?_
  simp
  omega

/-! ### The decoder on a command's header -/

theorem header_matches (i : Instr) : header i &&& opcodeMask (instrOpcode i) = opcodePattern (instrOpcode i) := by
  ext k hk
  simp only [header, BitVec.getElem_and, BitVec.getElem_or, BitVec.getElem_shiftLeft, BitVec.getElem_setWidth]
  cases i <;> simp only [instrOpcode, instrArg, opcodeMask, opcodePattern, opcodeCode, Instr.data,
    List.length_nil] <;> interval_cases k <;> simp

theorem decodeHeader_header (i : Instr) : decodeHeader (header i) = .ok (instrOpcode i) := by
  have hfind : opcodes.find? (fun op => opcodeCode op == headerOpc (header i)) = some (instrOpcode i) := by
    rw [headerOpc_header]
    cases instrOpcode i <;> decide
  rw [decodeHeader, hfind]
  simp [header_matches]

/-- A header the decoder accepts has the row's opcode and meets its match under its mask. -/
theorem decodeHeader_ok {h : Word} {op : Opcode} (hd : decodeHeader h = .ok op) :
    headerOpc h = opcodeCode op ∧ h &&& opcodeMask op = opcodePattern op := by
  unfold decodeHeader at hd
  split at hd
  · simp at hd
  · next o ho =>
    split at hd
    · next hm =>
      obtain rfl : o = op := by simpa using hd
      have := List.find?_some ho
      exact ⟨(by simpa using this : opcodeCode o = headerOpc h).symm, hm⟩
    · simp at hd

end Sys2Proof
end

