-- ==== Sys2Proof/Laws/State.lean ====
section
/-! SUPPORT. One lemma for each field of `State` under each named update, so that no later proof unfolds a
record update. -/

namespace Sys2Proof.Machine

/-! ### `transmit` -/

@[simp] theorem transmit_ctrl (f : Bytes) (s : State) : (transmit f s).ctrl = s.ctrl := rfl
@[simp] theorem transmit_tags (f : Bytes) (s : State) : (transmit f s).tags = s.tags := rfl
@[simp] theorem transmit_maxframe (f : Bytes) (s : State) : (transmit f s).maxframe = s.maxframe := rfl
@[simp] theorem transmit_crccfg (f : Bytes) (s : State) : (transmit f s).crccfg = s.crccfg := rfl
@[simp] theorem transmit_timeout (f : Bytes) (s : State) : (transmit f s).timeout = s.timeout := rfl
@[simp] theorem transmit_sfn (f : Bytes) (s : State) : (transmit f s).sfn = s.sfn := rfl
@[simp] theorem transmit_erfn (f : Bytes) (s : State) : (transmit f s).erfn = s.erfn := rfl
@[simp] theorem transmit_wait (f : Bytes) (s : State) : (transmit f s).wait = s.wait := rfl
@[simp] theorem transmit_sentTs (f : Bytes) (s : State) : (transmit f s).sentTs = s.sentTs := rfl
@[simp] theorem transmit_resend (f : Bytes) (s : State) : (transmit f s).resend = s.resend := rfl
@[simp] theorem transmit_rxbuf (f : Bytes) (s : State) : (transmit f s).rxbuf = s.rxbuf := rfl
@[simp] theorem transmit_rxbufCap (f : Bytes) (s : State) : (transmit f s).rxbufCap = s.rxbufCap := rfl
@[simp] theorem transmit_tx (f : Bytes) (s : State) : (transmit f s).tx = s.tx ++ [f] := rfl
@[simp] theorem transmit_deliver (f : Bytes) (s : State) : (transmit f s).deliver = s.deliver := rfl
@[simp] theorem transmit_event (f : Bytes) (s : State) : (transmit f s).event = s.event := rfl
@[simp] theorem transmit_cmd (f : Bytes) (s : State) : (transmit f s).cmd = s.cmd := rfl
@[simp] theorem transmit_resp (f : Bytes) (s : State) : (transmit f s).resp = s.resp := rfl

/-! ### `deliverPayload` -/

@[simp] theorem deliverPayload_ctrl (p : Bytes) (s : State) : (deliverPayload p s).ctrl = s.ctrl := rfl
@[simp] theorem deliverPayload_tags (p : Bytes) (s : State) : (deliverPayload p s).tags = s.tags := rfl
@[simp] theorem deliverPayload_maxframe (p : Bytes) (s : State) : (deliverPayload p s).maxframe = s.maxframe := rfl
@[simp] theorem deliverPayload_crccfg (p : Bytes) (s : State) : (deliverPayload p s).crccfg = s.crccfg := rfl
@[simp] theorem deliverPayload_timeout (p : Bytes) (s : State) : (deliverPayload p s).timeout = s.timeout := rfl
@[simp] theorem deliverPayload_sfn (p : Bytes) (s : State) : (deliverPayload p s).sfn = s.sfn := rfl
@[simp] theorem deliverPayload_erfn (p : Bytes) (s : State) : (deliverPayload p s).erfn = s.erfn := rfl
@[simp] theorem deliverPayload_wait (p : Bytes) (s : State) : (deliverPayload p s).wait = s.wait := rfl
@[simp] theorem deliverPayload_sentTs (p : Bytes) (s : State) : (deliverPayload p s).sentTs = s.sentTs := rfl
@[simp] theorem deliverPayload_resend (p : Bytes) (s : State) : (deliverPayload p s).resend = s.resend := rfl
@[simp] theorem deliverPayload_rxbuf (p : Bytes) (s : State) : (deliverPayload p s).rxbuf = s.rxbuf := rfl
@[simp] theorem deliverPayload_rxbufCap (p : Bytes) (s : State) : (deliverPayload p s).rxbufCap = s.rxbufCap := rfl
@[simp] theorem deliverPayload_tx (p : Bytes) (s : State) : (deliverPayload p s).tx = s.tx := rfl
@[simp] theorem deliverPayload_deliver (p : Bytes) (s : State) : (deliverPayload p s).deliver = s.deliver ++ [p] := rfl
@[simp] theorem deliverPayload_event (p : Bytes) (s : State) : (deliverPayload p s).event = s.event := rfl
@[simp] theorem deliverPayload_cmd (p : Bytes) (s : State) : (deliverPayload p s).cmd = s.cmd := rfl
@[simp] theorem deliverPayload_resp (p : Bytes) (s : State) : (deliverPayload p s).resp = s.resp := rfl

/-! ### `emit` -/

@[simp] theorem emit_ctrl (e : Event) (s : State) : (emit e s).ctrl = s.ctrl := rfl
@[simp] theorem emit_tags (e : Event) (s : State) : (emit e s).tags = s.tags := rfl
@[simp] theorem emit_maxframe (e : Event) (s : State) : (emit e s).maxframe = s.maxframe := rfl
@[simp] theorem emit_crccfg (e : Event) (s : State) : (emit e s).crccfg = s.crccfg := rfl
@[simp] theorem emit_timeout (e : Event) (s : State) : (emit e s).timeout = s.timeout := rfl
@[simp] theorem emit_sfn (e : Event) (s : State) : (emit e s).sfn = s.sfn := rfl
@[simp] theorem emit_erfn (e : Event) (s : State) : (emit e s).erfn = s.erfn := rfl
@[simp] theorem emit_wait (e : Event) (s : State) : (emit e s).wait = s.wait := rfl
@[simp] theorem emit_sentTs (e : Event) (s : State) : (emit e s).sentTs = s.sentTs := rfl
@[simp] theorem emit_resend (e : Event) (s : State) : (emit e s).resend = s.resend := rfl
@[simp] theorem emit_rxbuf (e : Event) (s : State) : (emit e s).rxbuf = s.rxbuf := rfl
@[simp] theorem emit_rxbufCap (e : Event) (s : State) : (emit e s).rxbufCap = s.rxbufCap := rfl
@[simp] theorem emit_tx (e : Event) (s : State) : (emit e s).tx = s.tx := rfl
@[simp] theorem emit_deliver (e : Event) (s : State) : (emit e s).deliver = s.deliver := rfl
@[simp] theorem emit_event (e : Event) (s : State) : (emit e s).event = s.event ++ [e] := rfl
@[simp] theorem emit_cmd (e : Event) (s : State) : (emit e s).cmd = s.cmd := rfl
@[simp] theorem emit_resp (e : Event) (s : State) : (emit e s).resp = s.resp := rfl

/-! ### `respond` -/

@[simp] theorem respond_ctrl (st : Status) (r : Word) (s : State) : (respond st r s).ctrl = s.ctrl := rfl
@[simp] theorem respond_tags (st : Status) (r : Word) (s : State) : (respond st r s).tags = s.tags := rfl
@[simp] theorem respond_maxframe (st : Status) (r : Word) (s : State) : (respond st r s).maxframe = s.maxframe := rfl
@[simp] theorem respond_crccfg (st : Status) (r : Word) (s : State) : (respond st r s).crccfg = s.crccfg := rfl
@[simp] theorem respond_timeout (st : Status) (r : Word) (s : State) : (respond st r s).timeout = s.timeout := rfl
@[simp] theorem respond_sfn (st : Status) (r : Word) (s : State) : (respond st r s).sfn = s.sfn := rfl
@[simp] theorem respond_erfn (st : Status) (r : Word) (s : State) : (respond st r s).erfn = s.erfn := rfl
@[simp] theorem respond_wait (st : Status) (r : Word) (s : State) : (respond st r s).wait = s.wait := rfl
@[simp] theorem respond_sentTs (st : Status) (r : Word) (s : State) : (respond st r s).sentTs = s.sentTs := rfl
@[simp] theorem respond_resend (st : Status) (r : Word) (s : State) : (respond st r s).resend = s.resend := rfl
@[simp] theorem respond_rxbuf (st : Status) (r : Word) (s : State) : (respond st r s).rxbuf = s.rxbuf := rfl
@[simp] theorem respond_rxbufCap (st : Status) (r : Word) (s : State) : (respond st r s).rxbufCap = s.rxbufCap := rfl
@[simp] theorem respond_tx (st : Status) (r : Word) (s : State) : (respond st r s).tx = s.tx := rfl
@[simp] theorem respond_deliver (st : Status) (r : Word) (s : State) : (respond st r s).deliver = s.deliver := rfl
@[simp] theorem respond_event (st : Status) (r : Word) (s : State) : (respond st r s).event = s.event := rfl
@[simp] theorem respond_cmd (st : Status) (r : Word) (s : State) : (respond st r s).cmd = s.cmd := rfl
@[simp] theorem respond_resp (st : Status) (r : Word) (s : State) : (respond st r s).resp = s.resp ++ [⟨st, r⟩] := rfl

/-! ### `rxAppend` -/

@[simp] theorem rxAppend_ctrl (d : Bytes) (s : State) : (rxAppend d s).ctrl = s.ctrl := rfl
@[simp] theorem rxAppend_tags (d : Bytes) (s : State) : (rxAppend d s).tags = s.tags := rfl
@[simp] theorem rxAppend_maxframe (d : Bytes) (s : State) : (rxAppend d s).maxframe = s.maxframe := rfl
@[simp] theorem rxAppend_crccfg (d : Bytes) (s : State) : (rxAppend d s).crccfg = s.crccfg := rfl
@[simp] theorem rxAppend_timeout (d : Bytes) (s : State) : (rxAppend d s).timeout = s.timeout := rfl
@[simp] theorem rxAppend_sfn (d : Bytes) (s : State) : (rxAppend d s).sfn = s.sfn := rfl
@[simp] theorem rxAppend_erfn (d : Bytes) (s : State) : (rxAppend d s).erfn = s.erfn := rfl
@[simp] theorem rxAppend_wait (d : Bytes) (s : State) : (rxAppend d s).wait = s.wait := rfl
@[simp] theorem rxAppend_sentTs (d : Bytes) (s : State) : (rxAppend d s).sentTs = s.sentTs := rfl
@[simp] theorem rxAppend_resend (d : Bytes) (s : State) : (rxAppend d s).resend = s.resend := rfl
@[simp] theorem rxAppend_rxbuf (d : Bytes) (s : State) : (rxAppend d s).rxbuf = s.rxbuf ++ d := rfl
@[simp] theorem rxAppend_rxbufCap (d : Bytes) (s : State) : (rxAppend d s).rxbufCap = s.rxbufCap := rfl
@[simp] theorem rxAppend_tx (d : Bytes) (s : State) : (rxAppend d s).tx = s.tx := rfl
@[simp] theorem rxAppend_deliver (d : Bytes) (s : State) : (rxAppend d s).deliver = s.deliver := rfl
@[simp] theorem rxAppend_event (d : Bytes) (s : State) : (rxAppend d s).event = s.event := rfl
@[simp] theorem rxAppend_cmd (d : Bytes) (s : State) : (rxAppend d s).cmd = s.cmd := rfl
@[simp] theorem rxAppend_resp (d : Bytes) (s : State) : (rxAppend d s).resp = s.resp := rfl

/-! ### `resetLink` -/

@[simp] theorem resetLink_ctrl (s : State) : (resetLink s).ctrl = s.ctrl := rfl
@[simp] theorem resetLink_tags (s : State) : (resetLink s).tags = s.tags := rfl
@[simp] theorem resetLink_maxframe (s : State) : (resetLink s).maxframe = s.maxframe := rfl
@[simp] theorem resetLink_crccfg (s : State) : (resetLink s).crccfg = s.crccfg := rfl
@[simp] theorem resetLink_timeout (s : State) : (resetLink s).timeout = s.timeout := rfl
@[simp] theorem resetLink_sfn (s : State) : (resetLink s).sfn = 0 := rfl
@[simp] theorem resetLink_erfn (s : State) : (resetLink s).erfn = 0 := rfl
@[simp] theorem resetLink_wait (s : State) : (resetLink s).wait = 0 := rfl
@[simp] theorem resetLink_sentTs (s : State) : (resetLink s).sentTs = 0 := rfl
@[simp] theorem resetLink_resend (s : State) : (resetLink s).resend = [] := rfl
@[simp] theorem resetLink_rxbuf (s : State) : (resetLink s).rxbuf = [] := rfl
@[simp] theorem resetLink_rxbufCap (s : State) : (resetLink s).rxbufCap = s.rxbufCap := rfl
@[simp] theorem resetLink_tx (s : State) : (resetLink s).tx = s.tx := rfl
@[simp] theorem resetLink_deliver (s : State) : (resetLink s).deliver = s.deliver := rfl
@[simp] theorem resetLink_event (s : State) : (resetLink s).event = s.event := rfl
@[simp] theorem resetLink_cmd (s : State) : (resetLink s).cmd = s.cmd := rfl
@[simp] theorem resetLink_resp (s : State) : (resetLink s).resp = s.resp := rfl

/-! ### `powerOnReset` -/

@[simp] theorem powerOnReset_ctrl (s : State) : (powerOnReset s).ctrl = 0x00000001 := rfl
@[simp] theorem powerOnReset_tags (s : State) : (powerOnReset s).tags = 0x405C7D7B := rfl
@[simp] theorem powerOnReset_maxframe (s : State) : (powerOnReset s).maxframe = 0x00000008 := rfl
@[simp] theorem powerOnReset_crccfg (s : State) : (powerOnReset s).crccfg = 0x000800A7 := rfl
@[simp] theorem powerOnReset_timeout (s : State) : (powerOnReset s).timeout = 0x00000064 := rfl
@[simp] theorem powerOnReset_sfn (s : State) : (powerOnReset s).sfn = 0 := rfl
@[simp] theorem powerOnReset_erfn (s : State) : (powerOnReset s).erfn = 0 := rfl
@[simp] theorem powerOnReset_wait (s : State) : (powerOnReset s).wait = 0 := rfl
@[simp] theorem powerOnReset_sentTs (s : State) : (powerOnReset s).sentTs = 0 := rfl
@[simp] theorem powerOnReset_resend (s : State) : (powerOnReset s).resend = [] := rfl
@[simp] theorem powerOnReset_rxbuf (s : State) : (powerOnReset s).rxbuf = [] := rfl
@[simp] theorem powerOnReset_rxbufCap (s : State) : (powerOnReset s).rxbufCap = s.rxbufCap := rfl
@[simp] theorem powerOnReset_tx (s : State) : (powerOnReset s).tx = s.tx := rfl
@[simp] theorem powerOnReset_deliver (s : State) : (powerOnReset s).deliver = s.deliver := rfl
@[simp] theorem powerOnReset_event (s : State) : (powerOnReset s).event = s.event := rfl
@[simp] theorem powerOnReset_cmd (s : State) : (powerOnReset s).cmd = [] := rfl
@[simp] theorem powerOnReset_resp (s : State) : (powerOnReset s).resp = s.resp := rfl

/-! ### `applyScan` -/

@[simp] theorem applyScan_ctrl (r : Scan) (s : State) : (applyScan r s).ctrl = s.ctrl := rfl
@[simp] theorem applyScan_tags (r : Scan) (s : State) : (applyScan r s).tags = s.tags := rfl
@[simp] theorem applyScan_maxframe (r : Scan) (s : State) : (applyScan r s).maxframe = s.maxframe := rfl
@[simp] theorem applyScan_crccfg (r : Scan) (s : State) : (applyScan r s).crccfg = s.crccfg := rfl
@[simp] theorem applyScan_timeout (r : Scan) (s : State) : (applyScan r s).timeout = s.timeout := rfl
@[simp] theorem applyScan_sfn (r : Scan) (s : State) : (applyScan r s).sfn = s.sfn := rfl
@[simp] theorem applyScan_erfn (r : Scan) (s : State) : (applyScan r s).erfn = s.erfn := rfl
@[simp] theorem applyScan_wait (r : Scan) (s : State) : (applyScan r s).wait = s.wait := rfl
@[simp] theorem applyScan_sentTs (r : Scan) (s : State) : (applyScan r s).sentTs = s.sentTs := rfl
@[simp] theorem applyScan_resend (r : Scan) (s : State) : (applyScan r s).resend = s.resend := rfl
@[simp] theorem applyScan_rxbuf (r : Scan) (s : State) : (applyScan r s).rxbuf = r.rxbuf := rfl
@[simp] theorem applyScan_rxbufCap (r : Scan) (s : State) : (applyScan r s).rxbufCap = s.rxbufCap := rfl
@[simp] theorem applyScan_tx (r : Scan) (s : State) : (applyScan r s).tx = s.tx := rfl
@[simp] theorem applyScan_deliver (r : Scan) (s : State) : (applyScan r s).deliver = s.deliver := rfl
@[simp] theorem applyScan_event (r : Scan) (s : State) : (applyScan r s).event = s.event ++ r.events := rfl
@[simp] theorem applyScan_cmd (r : Scan) (s : State) : (applyScan r s).cmd = s.cmd := rfl
@[simp] theorem applyScan_resp (r : Scan) (s : State) : (applyScan r s).resp = s.resp := rfl

/-! ### `withFetchWord` -/

@[simp] theorem withFetchWord_ctrl (s : State) (n w : Nat) : (s.withFetchWord n w).ctrl = s.ctrl := rfl
@[simp] theorem withFetchWord_tags (s : State) (n w : Nat) : (s.withFetchWord n w).tags = s.tags := rfl
@[simp] theorem withFetchWord_maxframe (s : State) (n w : Nat) : (s.withFetchWord n w).maxframe = s.maxframe := rfl
@[simp] theorem withFetchWord_crccfg (s : State) (n w : Nat) : (s.withFetchWord n w).crccfg = s.crccfg := rfl
@[simp] theorem withFetchWord_timeout (s : State) (n w : Nat) : (s.withFetchWord n w).timeout = s.timeout := rfl
@[simp] theorem withFetchWord_sfn (s : State) (n w : Nat) : (s.withFetchWord n w).sfn = s.sfn := rfl
@[simp] theorem withFetchWord_erfn (s : State) (n w : Nat) : (s.withFetchWord n w).erfn = s.erfn := rfl
@[simp] theorem withFetchWord_wait (s : State) (n w : Nat) : (s.withFetchWord n w).wait = s.wait := rfl
@[simp] theorem withFetchWord_sentTs (s : State) (n w : Nat) : (s.withFetchWord n w).sentTs = s.sentTs := rfl
@[simp] theorem withFetchWord_resend (s : State) (n w : Nat) : (s.withFetchWord n w).resend = s.resend := rfl
@[simp] theorem withFetchWord_rxbuf (s : State) (n w : Nat) : (s.withFetchWord n w).rxbuf = s.rxbuf := rfl
@[simp] theorem withFetchWord_rxbufCap (s : State) (n w : Nat) : (s.withFetchWord n w).rxbufCap = s.rxbufCap := rfl
@[simp] theorem withFetchWord_tx (s : State) (n w : Nat) : (s.withFetchWord n w).tx = s.tx := rfl
@[simp] theorem withFetchWord_deliver (s : State) (n w : Nat) : (s.withFetchWord n w).deliver = s.deliver := rfl
@[simp] theorem withFetchWord_event (s : State) (n w : Nat) : (s.withFetchWord n w).event = s.event := rfl
@[simp] theorem withFetchWord_cmd (s : State) (n w : Nat) : (s.withFetchWord n w).cmd = commandBytes n w ++ s.cmd := rfl
@[simp] theorem withFetchWord_resp (s : State) (n w : Nat) : (s.withFetchWord n w).resp = s.resp := rfl

end Sys2Proof.Machine
end

