-- ==== Sys2Proof/Laws/Ops.lean ====
section
/-! SUPPORT. One lemma for each shared operation that says what it can do; proofs cite these and do not
unfold the operation. -/

namespace Sys2Proof.Machine

/-! ### Responses and ports -/

theorem finish_eq_next {p : State × Word} {t : State} : finish p = .next t ↔ t = respond .ok p.2 p.1 := by
  simp [finish, eq_comm]

theorem fail_eq_next {st : Status} {s t : State} : fail st s = .next t ↔ t = respond st 0 s := by
  simp [fail, eq_comm]

theorem transmitAll_eq (fs : List Bytes) (s : State) : transmitAll fs s = { s with tx := s.tx ++ fs } := by
  induction fs generalizing s with
  | nil => simp [transmitAll]
  | cons f fs ih =>
    have h : transmitAll (f :: fs) s = transmitAll fs (transmit f s) := rfl
    rw [h, ih]
    simp [transmit]

/-! ### Registers and the receive buffer -/

theorem regOf_eq_none_iff (r : Byte) : regOf r = none ↔ 9 ≤ r.toNat := by
  unfold regOf
  split <;> simp_all
  omega

theorem writeReg_eq (reg : Reg) (v : Word) (s : State) : writeReg reg v s = { s with
    ctrl := if reg = .ctrl then v else s.ctrl
    tags := if reg = .tags then v else s.tags
    maxframe := if reg = .maxframe then v else s.maxframe
    crccfg := if reg = .crccfg then v else s.crccfg
    timeout := if reg = .timeout then v else s.timeout } := by
  cases reg <;> rfl

theorem withinCapacity_iff (cap : Option Nat) (n : Nat) :
    withinCapacity cap n = true ↔ ∀ c, cap = some c → n ≤ c := by
  cases cap <;> simp [withinCapacity]

theorem withinCapacity_mono {cap : Option Nat} {m n : Nat} (h : withinCapacity cap n = true) (hmn : m ≤ n) :
    withinCapacity cap m = true := by
  rw [withinCapacity_iff] at h ⊢
  exact fun c hc => hmn.trans (h c hc)

/-- Whatever the open parameter is, R7 allows it. -/
theorem resetCapacity_legal : capacityLegal Config.resetCapacity = true := by
  unfold Config.resetCapacity
  cases Config.capacityLessOne <;> simp [capacityLegal]

/-- An empty buffer is within every capacity. -/
@[simp] theorem withinCapacity_zero (cap : Option Nat) : withinCapacity cap 0 = true := by
  cases cap <;> simp [withinCapacity]

/-- RX_PUSH appends all of its bytes or none (R140). -/
theorem execRxPush_cases (d : Bytes) (s : State) :
    (withinCapacity s.rxbufCap (s.rxbuf.length + d.length) = true ∧
      execRxPush d s = finish (rxAppend d s, BitVec.ofNat 32 d.length)) ∨
    (withinCapacity s.rxbufCap (s.rxbuf.length + d.length) = false ∧ execRxPush d s = fail .rxOverflow s) := by
  cases h : withinCapacity s.rxbufCap (s.rxbuf.length + d.length) <;> simp [execRxPush, h, finish, fail]

/-! ### The ARQ Controller -/

theorem bit_eq_zero_or_one (b : BitVec 1) : b = 0 ∨ b = 1 := by
  revert b; decide

theorem arqSend_awaiting {s : State} (p : Bytes) (now : Word) (h : s.wait = 1) : arqSend p now s = (s, 0) := by
  simp [arqSend, h]

theorem arqSend_idle {s : State} (p : Bytes) (now : Word) (h : s.wait = 0) : arqSend p now s = ({ s with
    tx := s.tx ++ [wireFrame s.ctrl s.tags (contentArq s.ctrl s.crccfg p s.sfn)]
    resend := wireFrame s.ctrl s.tags (contentArq s.ctrl s.crccfg p s.sfn), sentTs := now, wait := 1 }, 1) := by
  simp [arqSend, h, transmit]

theorem onAckReceived_awaiting {s : State} (h : s.wait = 1) : onAckReceived s = { s with
    event := s.event ++ [.ackReceived], wait := 0, sfn := s.sfn ^^^ 1, resend := [] } := by
  simp [onAckReceived, h, emit]

theorem onAckReceived_idle {s : State} (h : s.wait = 0) :
    onAckReceived s = { s with event := s.event ++ [.ackReceived] } := by
  simp [onAckReceived, h, emit]

theorem onDataReceived_expected {s : State} (p : Bytes) {seq : Byte} (h : seq = seqByte s.erfn) :
    onDataReceived p seq s = ({ s with
      tx := s.tx ++ [ackFrame s.tags], deliver := s.deliver ++ [p]
      event := s.event ++ [.ackSent, .frameDelivered], erfn := s.erfn ^^^ 1 }, .payload) := by
  simp [onDataReceived, h, emit, deliverPayload, transmit]

theorem onDataReceived_unexpected {s : State} (p : Bytes) {seq : Byte} (h : seq ≠ seqByte s.erfn) :
    onDataReceived p seq s =
      ({ s with tx := s.tx ++ [ackFrame s.tags], event := s.event ++ [.ackSent] }, .duplicate) := by
  simp [onDataReceived, h, emit, transmit]

/-! ### Resolving a complete frame -/

theorem resolvePlain_nil (s : State) : resolvePlain [] s = (s, .damaged .short) := rfl

theorem resolvePlain_append (data : Bytes) (c : Byte) (s : State) : resolvePlain (data ++ [c]) s =
    if checkByte s.ctrl s.crccfg data = c then
      ({ s with deliver := s.deliver ++ [data], event := s.event ++ [.frameDelivered] }, .payload)
    else (s, .damaged .check) := by
  simp [resolvePlain, verify, emit, deliverPayload]

theorem resolveArq_ack (s : State) : resolveArq [tagAck s.tags] s = (onAckReceived s, .ackConsumed) := by
  simp [resolveArq]

theorem resolveArq_short {acc : Bytes} {s : State} (hack : acc ≠ [tagAck s.tags]) (h : acc.length < 2) :
    resolveArq acc s = (s, .damaged .short) := by
  match acc, h with
  | [], _ => simp [resolveArq]
  | [b], _ => simp [resolveArq, hack]

theorem resolveArq_append (p : Bytes) (seq c : Byte) (s : State) : resolveArq (p ++ [seq, c]) s =
    if checkByte s.ctrl s.crccfg (p ++ [seq]) = c then onDataReceived p seq s else (s, .damaged .check) := by
  have hack : p ++ [seq, c] ≠ [tagAck s.tags] := by
    intro h
    simpa using congrArg List.length h
  have h1 : (p ++ [seq, c]).getLast? = some c := by simp
  have h2 : (p ++ [seq, c]).dropLast = p ++ [seq] := by
    rw [show p ++ [seq, c] = (p ++ [seq]) ++ [c] by simp, List.dropLast_concat]
  simp [resolveArq, hack, h1, h2, verify]

/-- Everything `resolveFrame` can do, by its outcome (R150, R151, R173 to R175). -/
theorem resolveFrame_cases (acc : Bytes) (s : State) :
    (∃ why, resolveFrame acc s = (s, .damaged why)) ∨
    (arqEnabled s.ctrl = false ∧ ∃ data, resolveFrame acc s =
      ({ s with deliver := s.deliver ++ [data], event := s.event ++ [.frameDelivered] }, .payload)) ∨
    (arqEnabled s.ctrl = true ∧ s.wait = 1 ∧ resolveFrame acc s = ({ s with
      event := s.event ++ [.ackReceived], wait := 0, sfn := s.sfn ^^^ 1, resend := [] }, .ackConsumed)) ∨
    (arqEnabled s.ctrl = true ∧ s.wait = 0 ∧
      resolveFrame acc s = ({ s with event := s.event ++ [.ackReceived] }, .ackConsumed)) ∨
    (arqEnabled s.ctrl = true ∧ ∃ p, resolveFrame acc s = ({ s with
      tx := s.tx ++ [ackFrame s.tags], deliver := s.deliver ++ [p]
      event := s.event ++ [.ackSent, .frameDelivered], erfn := s.erfn ^^^ 1 }, .payload)) ∨
    (arqEnabled s.ctrl = true ∧ resolveFrame acc s =
      ({ s with tx := s.tx ++ [ackFrame s.tags], event := s.event ++ [.ackSent] }, .duplicate)) := by
  unfold resolveFrame
  by_cases harq : arqEnabled s.ctrl = true
  · simp only [harq, if_true]
    by_cases hack : acc = [tagAck s.tags]
    · subst hack
      rw [resolveArq_ack]
      rcases bit_eq_zero_or_one s.wait with hw | hw
      · simp [hw, onAckReceived_idle]
      · simp [hw, onAckReceived_awaiting]
    · by_cases hlen : acc.length < 2
      · exact .inl ⟨_, resolveArq_short hack hlen⟩
      · obtain ⟨q, c, rfl⟩ := (List.eq_nil_or_concat' acc).resolve_left (by rintro rfl; simp at hlen)
        obtain ⟨p, seq, rfl⟩ := (List.eq_nil_or_concat' q).resolve_left (by rintro rfl; simp at hlen)
        simp only [List.append_assoc, List.cons_append, List.nil_append]
        rw [resolveArq_append]
        by_cases hc : checkByte s.ctrl s.crccfg (p ++ [seq]) = c
        · by_cases hseq : seq = seqByte s.erfn
          · simp [hc, onDataReceived_expected p hseq]
          · simp [hc, onDataReceived_unexpected p hseq]
        · simp [hc]
  · simp only [harq]
    rcases List.eq_nil_or_concat' acc with rfl | ⟨data, c, rfl⟩
    · exact .inl ⟨_, resolvePlain_nil s⟩
    · simp only [resolvePlain_append]
      by_cases hc : checkByte s.ctrl s.crccfg data = c
      · simp [hc]
      · simp [hc]

end Sys2Proof.Machine
end

