-- ==== Sys2Proof/Laws/PerInstr.lean ====
section
/-! SUPPORT. Statements made for each command: `EncodedHeader`, that the header of a command meets its row of
the opcode table, is decoded as that row, and announces the length of the whole encoding (30_encoding.md
R80 to R83, R88). -/

namespace Sys2Proof.Laws.EncodedHeader

/-- The header of `i` selects the row of `i` and gives the length of its encoding. -/
def Statement (i : Instr) : Prop :=
  header i &&& opcodeMask (instrOpcode i) = opcodePattern (instrOpcode i) ∧
  decodeHeader (header i) = .ok (instrOpcode i) ∧
  (i.wellFormed = true → (encode i).length = commandLength (instrOpcode i) (header i))

theorem of_length {i : Instr}
    (h : headerLen (header i) = i.data.length → (encode i).length = commandLength (instrOpcode i) (header i)) :
    Statement i :=
  ⟨header_matches i, decodeHeader_header i, fun hw => h (headerLen_header hw)⟩

theorem chkCompute (d : Bytes) : Statement (.chkCompute d) := of_length fun h => by
  simp [encode, commandLength, dataLength, instrOpcode, opcodeFormat, takesData, takesWord, h, instrWord, Instr.data]

theorem chkVerify (c : Byte) (d : Bytes) : Statement (.chkVerify c d) := of_length fun h => by
  simp [encode, commandLength, dataLength, instrOpcode, opcodeFormat, takesData, takesWord, h, instrWord, Instr.data]

theorem send (d : Bytes) (now : Word) : Statement (.send d now) := of_length fun h => by
  simp [encode, commandLength, dataLength, instrOpcode, opcodeFormat, takesData, takesWord, h, instrWord, Instr.data]
  omega

theorem rxPush (d : Bytes) : Statement (.rxPush d) := of_length fun h => by
  simp [encode, commandLength, dataLength, instrOpcode, opcodeFormat, takesData, takesWord, h, instrWord, Instr.data]

theorem deframe : Statement .deframe := of_length fun _ => rfl

theorem tick (now : Word) : Statement (.tick now) := of_length fun _ => rfl

theorem regRd (r : Byte) : Statement (.regRd r) := of_length fun _ => rfl

theorem regWr (r : Byte) (v : Word) : Statement (.regWr r v) := of_length fun _ => rfl

theorem softReset : Statement .softReset := of_length fun _ => rfl

end Sys2Proof.Laws.EncodedHeader
end

