-- ==== Sys2Proof/Laws/Scan.lean ====
section
/-! SUPPORT. The scan of the receive buffer and the loop of DEFRAME: what a scan removes, what it makes of
stuffed bytes, and that the loop's fuel never runs out. -/

namespace Sys2Proof.Machine

/-! ### Seeking-Start -/

theorem seekStart_suffix (tags : Word) (bs : Bytes) : seekStart tags bs <:+ bs := by
  induction bs with
  | nil => simp [seekStart]
  | cons b rest ih =>
    unfold seekStart
    split
    · exact List.suffix_rfl
    · exact ih.trans (List.suffix_cons _ _)

theorem seekStart_eq_nil_or (tags : Word) (bs : Bytes) :
    seekStart tags bs = [] ∨ ∃ rest, seekStart tags bs = tagStart tags :: rest := by
  induction bs with
  | nil => simp [seekStart]
  | cons b rest ih =>
    unfold seekStart
    split
    · next h => exact .inr ⟨rest, by rw [h]⟩
    · exact ih

theorem seekStart_append {tags : Word} {garbage : Bytes} (h : tagStart tags ∉ garbage) (bs : Bytes) :
    seekStart tags (garbage ++ bs) = seekStart tags bs := by
  induction garbage with
  | nil => rfl
  | cons b g ih =>
    simp only [List.mem_cons, not_or] at h
    simp only [List.cons_append, seekStart, if_neg (Ne.symm h.1), ih h.2]

@[simp] theorem seekStart_start (tags : Word) (rest : Bytes) :
    seekStart tags (tagStart tags :: rest) = tagStart tags :: rest := by simp [seekStart]

@[simp] theorem scan_start (tags : Word) (rest : Bytes) :
    scan tags (tagStart tags :: rest) = accumulate tags rest (tagStart tags :: rest) [] := by simp [scan]

/-! ### Accumulating: one lemma for each branch of R143 -/

@[simp] theorem accumulate_nil (tags : Word) (frame acc : Bytes) : accumulate tags [] frame acc = ⟨[], frame, none⟩ := by
  simp [accumulate]

theorem accumulate_esc (tags : Word) (c : Byte) (rest frame acc : Bytes) :
    accumulate tags (tagEsc tags :: c :: rest) frame acc = accumulate tags rest frame (acc ++ [c]) := by
  rw [accumulate]
  simp

theorem accumulate_esc_nil (tags : Word) (frame acc : Bytes) :
    accumulate tags [tagEsc tags] frame acc = ⟨[], frame, none⟩ := by
  rw [accumulate]
  simp

theorem accumulate_stop {tags : Word} (h : tagStop tags ≠ tagEsc tags) (rest frame acc : Bytes) :
    accumulate tags (tagStop tags :: rest) frame acc = ⟨[], rest, some acc⟩ := by
  rw [accumulate.eq_def]
  simp [h]

theorem accumulate_restart {tags : Word} (h : tagStart tags ≠ tagEsc tags) (h' : tagStart tags ≠ tagStop tags)
    (rest frame acc : Bytes) : accumulate tags (tagStart tags :: rest) frame acc =
      { accumulate tags rest (tagStart tags :: rest) [] with
        events := .frameDamaged .resync :: (accumulate tags rest (tagStart tags :: rest) []).events } := by
  rw [accumulate.eq_def]
  simp [h, h']

theorem accumulate_other {tags : Word} {b : Byte} (h : b ≠ tagEsc tags) (h' : b ≠ tagStop tags)
    (h'' : b ≠ tagStart tags) (rest frame acc : Bytes) :
    accumulate tags (b :: rest) frame acc = accumulate tags rest frame (acc ++ [b]) := by
  rw [accumulate.eq_def]
  simp [h, h', h'']

/-- Distinct tags, as R203 has them. -/
theorem tagsLegal_iff (tags : Word) : tagsLegal tags = true ↔
    tagStart tags ≠ tagStop tags ∧ tagStart tags ≠ tagEsc tags ∧ tagStart tags ≠ tagAck tags ∧
    tagStop tags ≠ tagEsc tags ∧ tagStop tags ≠ tagAck tags ∧ tagEsc tags ≠ tagAck tags := by
  simp [tagsLegal, and_assoc]

/-- Stuffed bytes are read back one for one (R121, R145, R148). -/
theorem accumulate_stuff (ctrl tags : Word) (content rest frame acc : Bytes) :
    accumulate tags (stuff ctrl tags content ++ rest) frame acc =
      accumulate tags rest frame (acc ++ content) := by
  induction content generalizing acc with
  | nil => simp [stuff]
  | cons b bs ih =>
    have hcons : stuff ctrl tags (b :: bs) =
        (if inStuffSet ctrl tags b then [tagEsc tags, b] else [b]) ++ stuff ctrl tags bs := rfl
    rw [hcons]
    by_cases hb : inStuffSet ctrl tags b = true
    · simp only [hb, if_true, List.cons_append, List.nil_append]
      rw [accumulate_esc, ih]
      simp
    · have hb' := hb
      simp only [inStuffSet, Bool.or_eq_true, beq_iff_eq, not_or] at hb'
      rw [if_neg hb]
      simp only [List.cons_append, List.nil_append]
      rw [accumulate_other hb'.1.2 hb'.1.1.2 hb'.1.1.1, ih]
      simp

/-! ### What a scan removes -/

/-- RXBUF after the accumulating loop is a suffix of the frame it started from, and a completed frame removes
its START and its STOP. -/
theorem accumulate_rxbuf (tags : Word) (rest frame acc : Bytes) (pre : Bytes) (b : Byte)
    (hframe : frame = b :: pre ++ rest) :
    (accumulate tags rest frame acc).rxbuf <:+ frame ∧
    ((accumulate tags rest frame acc).content ≠ none →
      (accumulate tags rest frame acc).rxbuf.length + 2 ≤ frame.length) := by
  induction rest, frame, acc using accumulate.induct (tags := tags) generalizing pre b with
  | case1 frame acc => simp
  | case2 frame acc => simp [accumulate_esc_nil]
  | case3 frame acc c rest' ih =>
    rw [accumulate_esc]
    exact ih (pre ++ [tagEsc tags, c]) b (by simp [hframe])
  | case4 rest' frame acc hne =>
    rw [accumulate_stop hne]
    refine ⟨⟨b :: pre ++ [tagStop tags], by simp [hframe]⟩, fun _ => ?_⟩
    simp [hframe]
  | case5 rest' frame acc hne hstop ih =>
    rw [accumulate_restart hne hstop]
    obtain ⟨h1, h2⟩ := ih [] (tagStart tags) (by simp)
    refine ⟨h1.trans ⟨b :: pre, by simp [hframe]⟩, fun h => ?_⟩
    have := h2 h
    simp only [hframe, List.length_append, List.length_cons] at this ⊢
    omega
  | case6 c rest' frame acc hne hstop hstart ih =>
    rw [accumulate_other hne hstop hstart]
    exact ih (pre ++ [c]) b (by simp [hframe])

/-- A scan removes bytes from the front only (R62, R143). -/
theorem scan_rxbuf_suffix (tags : Word) (bs : Bytes) : (scan tags bs).rxbuf <:+ bs := by
  rcases seekStart_eq_nil_or tags bs with h | ⟨rest, h⟩
  · simp [scan, h]
  · have := (accumulate_rxbuf tags rest (tagStart tags :: rest) [] [] (tagStart tags) (by simp)).1
    simp only [scan, h]
    exact this.trans (h ▸ seekStart_suffix tags bs)

/-- A scan that completes a frame removes at least its START and its STOP (R154). -/
theorem scan_content_shrinks {tags : Word} {bs : Bytes} (h : (scan tags bs).content ≠ none) :
    (scan tags bs).rxbuf.length + 2 ≤ bs.length := by
  rcases seekStart_eq_nil_or tags bs with h' | ⟨rest, h'⟩
  · simp [scan, h'] at h
  · simp only [scan, h'] at h ⊢
    refine ((accumulate_rxbuf tags rest (tagStart tags :: rest) [] [] (tagStart tags) (by simp)).2 h).trans ?_
    exact (h' ▸ seekStart_suffix tags bs).length_le

/-! ### The loop -/

theorem resolveFrame_rxbuf (acc : Bytes) (s : State) : (resolveFrame acc s).1.rxbuf = s.rxbuf := by
  rcases resolveFrame_cases acc s with ⟨_, h⟩ | ⟨_, _, h⟩ | ⟨_, _, h⟩ | ⟨_, _, h⟩ | ⟨_, _, h⟩ | ⟨_, h⟩ <;>
    simp [h]

/-- More fuel than bytes in RXBUF is enough: any two such fuels give the same run (R154; entry 13). -/
theorem deframeLoop_fuel (m n : Nat) (s : State) (hm : s.rxbuf.length < m) (hn : s.rxbuf.length < n) :
    deframeLoop m s = deframeLoop n s := by
  induction m generalizing n s with
  | zero => omega
  | succ m ih =>
    obtain ⟨n, rfl⟩ : ∃ k, n = k + 1 := ⟨n - 1, by omega⟩
    simp only [deframeLoop]
    split
    · rfl
    · next acc hacc =>
      have hlen := scan_content_shrinks (tags := s.tags) (bs := s.rxbuf) (by simp [hacc])
      split
      · next u why hu =>
        have hrx := resolveFrame_rxbuf acc (applyScan (scan s.tags s.rxbuf) s)
        rw [hu] at hrx
        have hrx' : u.rxbuf = (scan s.tags s.rxbuf).rxbuf := hrx
        exact ih n _ (by simp [hrx']; omega) (by simp [hrx']; omega)
      all_goals rfl

end Sys2Proof.Machine
end

