-- ==== Sys2Proof/Tests/Slice0.lean ====
section
/-! SUPPORT. Tests of single commands, whose expected values are those of spec/ (95_test_vectors.md, 30_encoding.md
R92), and for each statement with hypotheses a witness that meets them. -/

namespace Sys2Proof.Tests

open Sys2Proof.Machine

/-- The block after reset with a CTRL value and received bytes, RXBUF_CAP unbounded as in 95_test_vectors.md
section 3. -/
def block (ctrl : Word) (rxbuf : Bytes) : State :=
  { State.reset with ctrl := ctrl, rxbuf := rxbuf, rxbufCap := none }

/-- The state a command leaves; `s` itself if it did not answer a next state. -/
def after (i : Instr) (s : State) : State :=
  match exec i s with
  | .next t => t
  | .fault _ => s
  | .refused _ => s

/-- The last response of the state a command leaves. -/
def response (i : Instr) (s : State) : Option Response := (after i s).resp.getLast?

/-! ### WellFormed: a byte string longer than LEN can say is refused (R81) -/

def tooLong : Bytes := List.replicate 65536 0x00

def longest : Bytes := List.replicate 65535 0x00

theorem tooLong_length : tooLong.length = 65536 := List.length_replicate

theorem longest_length : longest.length = 65535 := List.length_replicate

theorem test_wellFormed_refuses_long_chkCompute : (Instr.chkCompute tooLong).wellFormed = false := by
  simp only [Instr.wellFormed, Instr.data, tooLong_length, Config.maxData]
  decide

theorem test_wellFormed_refuses_long_chkVerify : (Instr.chkVerify 0x77 tooLong).wellFormed = false := by
  simp only [Instr.wellFormed, Instr.data, tooLong_length, Config.maxData]
  decide

theorem test_wellFormed_refuses_long_send : (Instr.send tooLong 0).wellFormed = false := by
  simp only [Instr.wellFormed, Instr.data, tooLong_length, Config.maxData]
  decide

theorem test_wellFormed_refuses_long_rxPush : (Instr.rxPush tooLong).wellFormed = false := by
  simp only [Instr.wellFormed, Instr.data, tooLong_length, Config.maxData]
  decide

theorem test_wellFormed_accepts_longest : (Instr.rxPush longest).wellFormed = true := by
  simp only [Instr.wellFormed, Instr.data, longest_length, Config.maxData]
  decide

/-! ### Decode: each row's word, from R92 and the table of R83 -/

theorem test_decode_chkCompute :
    decode [0x01, 0x00, 0x00, 0x02, 0x41, 0x42] = .command (.chkCompute [0x41, 0x42]) [] := by decide

theorem test_decode_chkVerify :
    decode [0x02, 0x77, 0x00, 0x02, 0x41, 0x42] = .command (.chkVerify 0x77 [0x41, 0x42]) [] := by decide

theorem test_decode_send : decode [0x03, 0x00, 0x00, 0x02, 0x48, 0x69, 0x00, 0x00, 0x01, 0x02] =
    .command (.send [0x48, 0x69] 0x102) [] := by decide

theorem test_decode_rxPush :
    decode [0x04, 0x00, 0x00, 0x03, 0x7B, 0x40, 0x7D] = .command (.rxPush [0x7B, 0x40, 0x7D]) [] := by decide

theorem test_decode_deframe : decode [0x05, 0x00, 0x00, 0x00] = .command .deframe [] := by decide

theorem test_decode_tick :
    decode [0x06, 0x00, 0x00, 0x00, 0x00, 0x00, 0x00, 0x65] = .command (.tick 0x65) [] := by decide

theorem test_decode_regRd : decode [0x07, 0x05, 0x00, 0x00] = .command (.regRd 0x05) [] := by decide

theorem test_decode_regWr :
    decode [0x08, 0x03, 0x00, 0x00, 0x00, 0x09, 0x01, 0xA7] = .command (.regWr 0x03 0x000901A7) [] := by decide

theorem test_decode_softReset : decode [0x09, 0x00, 0x00, 0x00] = .command .softReset [] := by decide

theorem test_decode_illegal_opcode :
    decode [0x0A, 0x12, 0x34, 0x56, 0x05] = .illegal .illegalOpcode [0x05] := by decide

theorem test_decode_must_be_zero : decode [0x05, 0x00, 0x00, 0x01] = .illegal .mustBeZero [] := by decide

theorem test_decode_incomplete : decode [0x03, 0x00, 0x00, 0x01, 0x48, 0x00, 0x00, 0x00] = .incomplete := by decide

theorem test_decodeTableWord_send : decodeTableWord 80 0x0102_6948_03000002 = some (.send [0x48, 0x69] 0x102) := by
  decide

theorem test_withFetchWord_runs :
    step (State.reset.withFetchWord 32 0x07010000) = .next { State.reset with resp := [⟨.ok, 0x405C7D7B⟩] } := by
  rfl

/-- RX_PUSH runs as the first command after reset, whatever the open capacity is. -/
theorem test_withFetchWord_rxPush : ∃ t, step (State.reset.withFetchWord 40 0x7B04000001) = .next t := ⟨_, rfl⟩

/-! ### One command each, from 95_test_vectors.md -/

/-- Section 1.1. -/
theorem test_chkCompute_crc : response (.chkCompute [0x41, 0x42]) State.reset = some ⟨.ok, 0x77⟩ := by decide +kernel

/-- Section 2.1, W = 9. -/
theorem test_chkCompute_width_nine :
    response (.chkCompute [0x41, 0x42]) { State.reset with crccfg := 0x000901A7 } = some ⟨.ok, 0xA0⟩ := by decide +kernel

/-- Section 1.1. -/
theorem test_chkVerify_right : response (.chkVerify 0x77 [0x41, 0x42]) State.reset = some ⟨.ok, 1⟩ := by decide +kernel

/-- Section 2.2: a check byte of 2 never verifies in parity mode. -/
theorem test_chkVerify_compares_whole_byte :
    response (.chkVerify 0x02 [0x01]) (block 0 []) = some ⟨.ok, 0⟩ := by decide

/-- Section 1.2: all tag bytes, ARQ off, so ACK is not escaped. -/
theorem test_send_stuffs_tags : (after (.send [0x7B, 0x7D, 0x5C, 0x40] 0) State.reset).tx =
    [[0x7B, 0x5C, 0x7B, 0x5C, 0x7D, 0x5C, 0x5C, 0x40, 0x23, 0x7D]] := by decide +kernel

/-- Section 1.2: parity and ARQ, so ACK is escaped, and the sequence byte comes before the check byte. -/
theorem test_send_arq :
    (after (.send [0x7B, 0x40] 5) (block 2 [])).resend = [0x7B, 0x5C, 0x7B, 0x5C, 0x40, 0x00, 0x01, 0x7D] := by
  decide

/-- R140. -/
theorem test_rxPush_appends : (after (.rxPush [0x03]) (block 1 [0x01, 0x02])).rxbuf = [0x01, 0x02, 0x03] := by
  decide

/-- Section 1.3: garbage, a cut frame, then a whole one. -/
theorem test_deframe_resync : exec .deframe (block 0
    [0x67, 0x61, 0x7B, 0x41, 0x42, 0x7B, 0x43, 0x44, 0x01, 0x7D]) = .next { block 0 [] with
      deliver := [[0x43, 0x44]], event := [.frameDamaged .resync, .frameDelivered], resp := [⟨.ok, 0⟩] } := by rfl

/-- Section 1.4: an escape at the end of the buffer waits. -/
theorem test_deframe_escape_at_end :
    exec .deframe (block 1 [0x7B, 0x41, 0x5C]) =
      .next { block 1 [0x7B, 0x41, 0x5C] with resp := [⟨.ok, 1⟩] } := by rfl

/-- Section 1.7: "exceeds" is strict. -/
theorem test_tick_at_threshold :
    response (.tick 100) { State.reset with ctrl := 3, wait := 1, resend := [0x7B] } = some ⟨.ok, 0⟩ := by decide

theorem test_tick_past_threshold :
    response (.tick 101) { State.reset with ctrl := 3, wait := 1, resend := [0x7B] } = some ⟨.ok, 1⟩ := by decide

/-- R27: WAIT at bit 2, ERFN at bit 1, SFN at bit 0. -/
theorem test_regRd_arqstat :
    response (.regRd 0x05) { State.reset with wait := 1, sfn := 1 } = some ⟨.ok, 5⟩ := by decide

theorem test_regRd_unmapped : response (.regRd 0x09) State.reset = some ⟨.badReg, 0⟩ := by decide

theorem test_regWr_ctrl : (after (.regWr 0x00 3) State.reset).ctrl = 3 := by decide

/-- R205's example. -/
theorem test_regWr_crccfg_refused :
    exec (.regWr 0x03 0x000900A7) State.reset = .next { State.reset with resp := [⟨.badConfig, 0⟩] } := by rfl

/-- R208: the configuration stays. -/
theorem test_softReset : exec .softReset { block 3 [0x7B] with wait := 1, resend := [0x01], sfn := 1 } =
    .next { block 3 [] with resp := [⟨.ok, 0⟩] } := by rfl

/-! ### Witnesses: encoding and the command port -/

theorem witness_DecodeReadsBackEveryEncoding :
    (Instr.chkVerify 0xFF []).wellFormed = true ∧
    (Instr.send longest 0xFFFFFFFF).wellFormed = true := by
  simp only [Instr.wellFormed, Instr.data, longest_length, Config.maxData]
  decide

theorem witness_EveryCommandHasOneEncoding : decode [0x05, 0x00, 0x00, 0x00, 0xFF] = .command .deframe [0xFF] := by
  decide

theorem witness_HeaderSelectsItsRowByMatchAndMask :
    (0x0104FFFF : Word) &&& opcodeMask .softReset ≠ opcodePattern .softReset ∧
    (0x0100FFFF : Word) &&& opcodeMask .chkCompute = opcodePattern .chkCompute ∧
    ∀ op : Opcode, (0x0A000000 : Word) &&& opcodeMask op ≠ opcodePattern op := by
  refine ⟨by decide, by decide, fun op => ?_⟩
  cases op <;> decide

theorem witness_IllegalHeader_opcode :
    ({ State.reset with cmd := [0x0A, 0x00, 0x00, 0x00, 0x05] } : State).cmd = bytesOfWord 0x0A000000 ++ [0x05] ∧
    (headerOpc 0x00000000).toNat = 0 ∧ 0x0A ≤ (headerOpc 0x0A000000).toNat ∧
    0x0A ≤ (headerOpc 0xFFFFFFFF).toNat := by decide

theorem witness_IllegalHeader_must_be_zero :
    headerOpc 0x05000001 = opcodeCode .deframe ∧ (opcodePattern .deframe).getLsbD 0 = false ∧
    (opcodeMask .deframe).getLsbD 0 = true ∧ (0x05000001 : Word).getLsbD 0 = true ∧
    headerOpc 0x04800000 = opcodeCode .rxPush ∧ (opcodePattern .rxPush).getLsbD 23 = false ∧
    (opcodeMask .rxPush).getLsbD 23 = true ∧ (0x04800000 : Word).getLsbD 23 = true := by decide

theorem witness_CommandLengthFollowsFromHeader :
    (decodeHeader 0x03000002 = .ok .send ∧ 4 + [0x48, 0x69, 0x00, 0x00, (0x00 : Byte)].length <
      commandLength .send 0x03000002) ∧
    commandLength .send 0x03000002 ≤ 4 + [0x48, 0x69, 0x00, 0x00, 0x00, (0x00 : Byte)].length := by decide

theorem witness_StepRunsTheDecodedCommand :
    decode ({ State.reset with cmd := [0x07, 0x00, 0x00, 0x00] } : State).cmd = .command (.regRd 0x00) [] ∧
    decode ({ State.reset with cmd := [0x00, 0x00, 0x00, 0x00] } : State).cmd = .illegal .illegalOpcode [] ∧
    decode State.reset.cmd = .incomplete := by decide

theorem witness_CommandsTakeEffectInPortOrder :
    (∀ i ∈ [Instr.rxPush [0x7B], .deframe], i.wellFormed = true) ∧
    ({ State.reset with cmd := [0x04, 0x00, 0x00, 0x01, 0x7B, 0x05, 0x00, 0x00, 0x00, 0x06] } : State).cmd =
      [Instr.rxPush [0x7B], .deframe].flatMap encode ++ [0x06] := by decide

/-! ### Witnesses: Checksum Engine -/

theorem witness_ParityIsTheSumOfAllBits :
    List.Perm [0x01, (0x03 : Byte)] [0x03, 0x01] ∧
    [0x01, (0x03 : Byte)].map popcount = [0x80, 0x30].map popcount := by decide

theorem witness_CrcIsThePolynomialRemainder :
    2 ≤ 2 ∧ (0b11 : BitVec 2).msb = true ∧ 2 ≤ 9 ∧ (0x1A7 : BitVec 9).msb = true := by decide

theorem witness_CheckFunctionsObeyTheirArithmeticLaws :
    2 ≤ 8 ∧ (0xA6 : BitVec 8).msb = true ∧ (0xA6 : BitVec 8).getLsbD 0 = false ∧
    [(0x41 : Byte)].length = [(0x42 : Byte)].length ∧
    (0x80 : BitVec 8).msb = true ∧ (0x80 : BitVec 8) = BitVec.twoPow 8 (8 - 1) ∧
    (0b10 : BitVec 2).msb = true ∧ (0b10 : BitVec 2).getLsbD 0 = false := by decide

theorem witness_CheckByteStaysWithinItsWidth :
    crccfgLegal State.reset.crccfg = true ∧
    (if State.reset.ctrl[0] then 2 ^ (crcWidth State.reset.crccfg - 1) else 2) ≤ (0x80 : Byte).toNat ∧
    (if (block 0 []).ctrl[0] then 2 ^ (crcWidth (block 0 []).crccfg - 1) else 2) ≤ (0x02 : Byte).toNat := by decide

theorem witness_ResidueIsZeroForWidthNine : (0x1A7 : BitVec 9).msb = true := by decide

theorem witness_ChecksDetect_flip :
    0 < (bitstream [0x00]).length ∧ [(0x00 : Byte)].length = [(0x80 : Byte)].length ∧
    ∀ j, (bitstream [0x00])[j]? = (bitstream [0x80])[j]? ↔ j ≠ 0 := by
  refine ⟨by decide, by decide, fun j => ?_⟩
  rcases lt_or_ge j 8 with h | h
  · interval_cases j <;> decide
  · rw [List.getElem?_eq_none (by simpa [bitstream] using h), List.getElem?_eq_none (by simpa [bitstream] using h)]
    simp
    omega

/-- The changed bits span exactly W - 1 = 7 positions, from 7 to 13. -/
theorem witness_ChecksDetect_burst :
    2 ≤ 8 ∧ (0xA7 : BitVec 8).msb = true ∧ (0xA7 : BitVec 8).getLsbD 0 = true ∧
    [0x00, (0x00 : Byte)].length = [0x01, (0x04 : Byte)].length ∧ [0x00, (0x00 : Byte)] ≠ [0x01, 0x04] ∧
    ∀ j, j < 7 ∨ 7 + (8 - 1) ≤ j → (bitstream [0x00, 0x00])[j]? = (bitstream [0x01, 0x04])[j]? := by
  refine ⟨by decide, by decide, by decide, by decide, by decide, fun j hj => ?_⟩
  rcases lt_or_ge j 16 with h | h
  · interval_cases j <;> first | rfl | omega
  · rw [List.getElem?_eq_none (by simpa [bitstream] using h), List.getElem?_eq_none (by simpa [bitstream] using h)]

theorem witness_ChkComputeAnswersTheCheckByte :
    (block 0 []).ctrl[0] = false ∧ State.reset.ctrl[0] = true ∧ crccfgLegal State.reset.crccfg = true := by decide

theorem witness_ChkVerifyComparesTheWholeCheckByte :
    checkByte (block 0 []).ctrl (block 0 []).crccfg [0x01] = 0x01 ∧
    checkByte (block 0 []).ctrl (block 0 []).crccfg [0x01] ≠ 0x02 ∧
    exec (.chkCompute [0x01]) (block 0 []) =
      .next { block 0 [] with resp := (block 0 []).resp ++ [⟨.ok, (0x01 : Byte).setWidth 32⟩] } := by
  exact ⟨by decide, by decide, rfl⟩

/-! ### Witnesses: Framer and SEND -/

theorem witness_SubframesPartitionThePayload :
    1 ≤ 1 ∧ [0x01, (0x02 : Byte)] ≠ [] ∧ [0x01] ∈ (subframes [0x01, 0x02] 1).dropLast ∧ 1 ≤ 65535 := by decide

theorem witness_ScanRecoversWireFrameContent : tagsLegal State.reset.tags = true := by decide

theorem witness_SendWithoutArqTransmitsEverySubframe : State.reset.ctrl[1] = false := by decide

theorem witness_ArqSendFromIdleTransmitsAndStores : (block 3 []).ctrl[1] = true ∧ (block 3 []).wait = 0 := by decide

theorem witness_ArqSendWhileAwaitingIsRefused :
    (after (.send [] 0) (block 3 [])).ctrl[1] = true ∧ (after (.send [] 0) (block 3 [])).wait = 1 := by decide

/-! ### Witnesses: Deframer -/

/-- A capacity of 4 with two bytes in the buffer: two more fit, three do not. -/
def small : State := { block 1 [0x01, 0x02] with rxbufCap := some 4 }

theorem witness_RxPushAppendsAllOrNothing :
    (∀ c, small.rxbufCap = some c → small.rxbuf.length + [0x03, (0x04 : Byte)].length ≤ c) ∧
    small.rxbufCap = some 4 ∧ 4 < small.rxbuf.length + [0x03, 0x04, (0x05 : Byte)].length ∧
    ∀ c, (block 1 []).rxbufCap = some c → (block 1 []).rxbuf.length + [(0x03 : Byte)].length ≤ c := by
  refine ⟨?_, rfl, by decide, ?_⟩ <;> simp [small, block]

theorem witness_SeekingStartDiscardsEverythingBeforeStart : tagStart State.reset.tags ∉ [0x7D, 0x5C, 0x40] := by
  decide

/-- Empty content, a wrong check byte, and a right one, ARQ off. -/
theorem witness_PlainFramesAreVerifiedAndDelivered :
    (block 0 []).ctrl[1] = false ∧
    scan (block 0 [0x7B, 0x7D]).tags (block 0 [0x7B, 0x7D]).rxbuf = ⟨[], [], some []⟩ ∧
    scan (block 0 [0x7B, 0x01, 0x00, 0x7D]).tags (block 0 [0x7B, 0x01, 0x00, 0x7D]).rxbuf =
      ⟨[], [], some ([0x01] ++ [0x00])⟩ ∧
    checkByte (block 0 []).ctrl (block 0 []).crccfg [0x01] ≠ 0x00 ∧
    scan (block 0 [0x7B, 0x03, 0x00, 0x7D]).tags (block 0 [0x7B, 0x03, 0x00, 0x7D]).rxbuf =
      ⟨[], [], some ([0x03] ++ [0x00])⟩ ∧
    checkByte (block 0 []).ctrl (block 0 []).crccfg [0x03] = 0x00 := by decide

/-- One byte, then both sequence bytes with ERFN = 0, in parity mode with ARQ on. -/
theorem witness_ArqDataFramesAreAcknowledgedAndDeliveredInOrder :
    (block 2 []).ctrl[1] = true ∧ [0x00] ≠ [tagAck (block 2 []).tags] ∧
    scan (block 2 [0x7B, 0x00, 0x7D]).tags (block 2 [0x7B, 0x00, 0x7D]).rxbuf = ⟨[], [], some [0x00]⟩ ∧
    [(0x00 : Byte)].length < 2 ∧
    scan (block 2 []).tags [0x7B, 0x00, 0x00, 0x7D] = ⟨[], [], some ([] ++ [0x00, 0x00])⟩ ∧
    checkByte (block 2 []).ctrl (block 2 []).crccfg ([] ++ [0x00]) ≠ 0x01 ∧
    checkByte (block 2 []).ctrl (block 2 []).crccfg ([] ++ [0x00]) = 0x00 ∧
    0x00 = (block 2 []).erfn.setWidth 8 ∧
    scan (block 2 []).tags [0x7B, 0x01, 0x01, 0x7D] = ⟨[], [], some ([] ++ [0x01, 0x01])⟩ ∧
    checkByte (block 2 []).ctrl (block 2 []).crccfg ([] ++ [0x01]) = 0x01 ∧
    0x01 ≠ (block 2 []).erfn.setWidth 8 := by decide

/-- A block in AwaitingAck that has received an acknowledgment. -/
def awaiting : State := { after (.send [0x48, 0x69] 0) (block 3 []) with rxbuf := [0x7B, 0x40, 0x7D] }

theorem witness_AcknowledgmentCompletesTheOutstandingFrame :
    awaiting.ctrl[1] = true ∧ awaiting.wait = 1 ∧
    scan awaiting.tags awaiting.rxbuf = ⟨[], [], some [tagAck awaiting.tags]⟩ := by decide

theorem witness_AcknowledgmentInIdleChangesNoArqState :
    (block 3 [0x7B, 0x40, 0x7D]).ctrl[1] = true ∧ (block 3 [0x7B, 0x40, 0x7D]).wait = 0 ∧
    scan (block 3 []).tags (block 3 [0x7B, 0x40, 0x7D]).rxbuf = ⟨[], [], some [tagAck (block 3 []).tags]⟩ := by
  decide

/-- What the first scan of `s` and the resolution of its frame give; none is an incomplete scan. -/
def firstOutcome (s : State) : Option Resolved :=
  (scan s.tags s.rxbuf).content.map fun acc => (resolveFrame acc (applyScan (scan s.tags s.rxbuf) s)).2

/-- Each outcome of the loop: none, damaged, payload, acknowledgment, duplicate. -/
theorem witness_DeframeUnfoldsItsLoop :
    firstOutcome (block 2 [0x7B, 0x01]) = none ∧
    firstOutcome (block 2 [0x7B, 0x01, 0x7D]) = some (.damaged .short) ∧
    firstOutcome (block 2 [0x7B, 0x00, 0x00, 0x7D]) = some .payload ∧
    firstOutcome (block 2 [0x7B, 0x40, 0x7D]) = some .ackConsumed ∧
    firstOutcome (block 2 [0x7B, 0x01, 0x01, 0x7D]) = some .duplicate := by decide

theorem witness_IncompleteLeavesAPartialFrameAndIsStable :
    exec .deframe (block 1 [0x01, 0x7B, 0x41]) = .next (after .deframe (block 1 [0x01, 0x7B, 0x41])) ∧
    (after .deframe (block 1 [0x01, 0x7B, 0x41])).resp = (block 1 [0x01, 0x7B, 0x41]).resp ++ [⟨.ok, 1⟩] := by
  exact ⟨rfl, rfl⟩

/-- The cut stands inside an escape. -/
theorem witness_CutWireFrameWaitsInTheBuffer :
    tagsLegal (block 1 [0x7B, 0x5C]).tags = true ∧
    wireFrame 1 (block 1 [0x7B, 0x5C]).tags [0x7D, 0x29] = [0x7B, 0x5C] ++ [0x7D, 0x29, 0x7D] ∧
    [0x7B, (0x5C : Byte)] ≠ [] ∧ [0x7D, 0x29, (0x7D : Byte)] ≠ [] ∧
    (block 1 [0x7B, 0x5C]).rxbuf = [0x7B, 0x5C] := by decide

theorem witness_NewStartResynchronizes : tagsLegal State.reset.tags = true := by decide

/-! ### Witnesses: two ends of a link -/

/-- The sender of a plain link has sent nine bytes, which make two sub-frames; the receiver has got both. -/
theorem witness_PlainLinkDeliversEverySubframe :
    configLegal State.reset = true ∧ State.reset.ctrl[1] = false ∧
    exec (.send [0x30, 0x31, 0x32, 0x33, 0x34, 0x35, 0x36, 0x37, 0x38] 0) State.reset =
      .next (after (.send [0x30, 0x31, 0x32, 0x33, 0x34, 0x35, 0x36, 0x37, 0x38] 0) State.reset) ∧
    (block 1 [0x7B, 0x30, 0x31, 0x32, 0x33, 0x34, 0x35, 0x36, 0x37, 0x49, 0x7D, 0x7B, 0x38, 0x0C, 0x7D]).rxbuf =
      ((after (.send [0x30, 0x31, 0x32, 0x33, 0x34, 0x35, 0x36, 0x37, 0x38] 0) State.reset).tx.drop
        State.reset.tx.length).flatten := by
  exact ⟨by decide, by decide, rfl, by decide +kernel⟩

/-- The sender's state after its SEND, and the receiver that has got the frame (program P3). -/
def sent : State := after (.send [0x48, 0x69] 0) (block 3 [])

def received : State := block 3 [0x7B, 0x48, 0x69, 0x00, 0x5B, 0x7D]

theorem witness_ArqLinkDeliversAndAcknowledges :
    configLegal (block 3 []) = true ∧ (block 3 []).ctrl[1] = true ∧ (block 3 []).wait = 0 ∧
    received.ctrl = (block 3 []).ctrl ∧ received.tags = (block 3 []).tags ∧
    received.crccfg = (block 3 []).crccfg ∧ received.erfn = (block 3 []).sfn ∧
    exec (.send [0x48, 0x69] 0) (block 3 []) = .next sent ∧
    received.rxbuf = (sent.tx.drop (block 3 []).tx.length).flatten ∧
    exec .deframe received = .next (after .deframe received) := by
  exact ⟨by decide, by decide, by decide, rfl, rfl, rfl, rfl, rfl, by decide +kernel, rfl⟩

theorem witness_RetransmissionIsDeliveredOnlyOnce :
    configLegal (block 3 []) = true ∧ (block 3 []).ctrl[1] = true ∧ (block 3 []).wait = 0 ∧
    (block 3 []).timeout < (101 : Word) - 0 ∧
    exec (.send [0x48, 0x69] 0) (block 3 []) = .next sent ∧ exec (.tick 101) sent = .next (after (.tick 101) sent) ∧
    (block 3 (received.rxbuf ++ received.rxbuf)).rxbuf =
      ((after (.tick 101) sent).tx.drop (block 3 []).tx.length).flatten := by
  exact ⟨by decide, by decide, by decide, by decide, rfl, rfl, by decide +kernel⟩

/-- Unbounded, and at the least capacity that holds an acknowledgment. -/
theorem witness_StaleAcknowledgmentLosesTheNextFrame :
    tagsLegal awaiting.tags = true ∧ awaiting.ctrl[1] = true ∧ awaiting.wait = 1 ∧
    withinCapacity awaiting.rxbufCap 3 = true ∧ awaiting.rxbuf = ackFrame awaiting.tags ∧
    withinCapacity ({ awaiting with rxbufCap := some 3 } : State).rxbufCap 3 = true := by decide

theorem witness_ExampleFlipsIntoStopAreDeliveredUndetected :
    ((0 : Word), [0x7B, 0x00, 0x7C, 0x01, (0x7D : Byte)]) ∈
      [((0 : Word), [0x7B, 0x00, 0x7C, 0x01, (0x7D : Byte)]), (1, [0x7B, 0x00, 0x7C, 0x55, 0x7D])] ∧
    ((1 : Word), [0x7B, 0x00, 0x7C, 0x55, (0x7D : Byte)]) ∈
      [((0 : Word), [0x7B, 0x00, 0x7C, 0x01, (0x7D : Byte)]), (1, [0x7B, 0x00, 0x7C, 0x55, 0x7D])] := by
  simp

/-- A buffer of three bytes, full of a frame without its STOP. -/
def full : State := { block 1 [0x7B, 0x41, 0x42] with rxbufCap := some 3 }

theorem witness_FullBufferWithPartialFrameIsStuck :
    full.rxbufCap = some full.rxbuf.length ∧ scan full.tags full.rxbuf = ⟨[], full.rxbuf, none⟩ ∧
    ∀ i ∈ [Instr.deframe, .rxPush [0x7D]], i = .deframe ∨ ∃ b d, i = .rxPush (b :: d) := by
  refine ⟨by decide, by decide, ?_⟩
  simp

/-! ### Witnesses: timer and control -/

/-- The clock at, one past, and far past the threshold; the difference wraps modulo 2^32. -/
theorem witness_TickRetransmitsExactlyAfterTimeout :
    sent.ctrl[1] = true ∧ sent.wait = 1 ∧
    sent.timeout.toNat < ((101 : Word).toNat + 2 ^ 32 - sent.sentTs.toNat) % 2 ^ 32 ∧
    ((100 : Word).toNat + 2 ^ 32 - sent.sentTs.toNat) % 2 ^ 32 ≤ sent.timeout.toNat ∧
    State.reset.ctrl[1] = false ∧ (block 3 []).wait = 0 := by decide

theorem witness_RetransmissionHasNoCap : sent.ctrl[1] = true ∧ sent.wait = 1 ∧ sent.timeout ≠ 0xFFFFFFFF := by decide

theorem witness_RegReadAnswersEveryRegister :
    ((0x05 : Byte), (4 : Word)) ∈ [((0x00 : Byte), sent.ctrl), (0x01, sent.tags), (0x02, sent.maxframe),
      (0x03, sent.crccfg), (0x04, sent.timeout), (0x06, sent.sentTs),
      (0x07, BitVec.ofNat 32 (min sent.rxbuf.length 0xFFFFFFFF)),
      (0x08, BitVec.ofNat 32 (min sent.resend.length 0xFFFFFFFF)),
      (0x05, BitVec.ofNat 32 (4 * sent.wait.toNat + 2 * sent.erfn.toNat + sent.sfn.toNat))] ∧
    0x09 ≤ (0x09 : Byte).toNat ∧ 0x09 ≤ (0xFF : Byte).toNat := by decide

theorem witness_CtrlWriteIsChecked : (3 : Word).toNat < 4 ∧ 4 ≤ (4 : Word).toNat := by decide

theorem witness_TagsWriteIsChecked :
    [(0x04030201 : Word).extractLsb' 0 8, (0x04030201 : Word).extractLsb' 8 8, (0x04030201 : Word).extractLsb' 16 8,
      (0x04030201 : Word).extractLsb' 24 8].Nodup ∧
    ¬ [(0x7B5C7D7B : Word).extractLsb' 0 8, (0x7B5C7D7B : Word).extractLsb' 8 8,
      (0x7B5C7D7B : Word).extractLsb' 16 8, (0x7B5C7D7B : Word).extractLsb' 24 8].Nodup := by decide

theorem witness_MaxframeWriteIsChecked :
    (1 ≤ (1 : Word).toNat ∧ (1 : Word).toNat ≤ 65535) ∧ (1 ≤ (65535 : Word).toNat ∧ (65535 : Word).toNat ≤ 65535) ∧
    (0 : Word).toNat = 0 ∧ 65535 < (65536 : Word).toNat := by decide

theorem witness_CrccfgWriteIsChecked_legal :
    2 ≤ 2 ∧ 2 ≤ 9 ∧ 2 ^ (2 - 1) ≤ 3 ∧ 3 < 2 ^ 2 ∧ 9 ≤ 9 ∧ 2 ^ (9 - 1) ≤ 256 ∧ 511 < 2 ^ 9 := by decide

theorem witness_CrccfgWriteIsChecked_illegal :
    ∀ w g : Nat, 2 ≤ w → w ≤ 9 → 2 ^ (w - 1) ≤ g → g < 2 ^ w → (0x000801A7 : Word).toNat ≠ w * 65536 + g := by
  intro w g h2 h9 hlo hhi h
  obtain rfl : w = 8 := by
    have : g < 2 ^ 9 := hhi.trans_le (Nat.pow_le_pow_right (by omega) h9)
    have : (0x000801A7 : Word).toNat = 524711 := rfl
    omega
  have : (0x000801A7 : Word).toNat = 524711 := rfl
  omega

theorem witness_ReadOnlyAndUnmappedRegistersAnswerBadReg :
    0x05 ≤ (0x05 : Byte).toNat ∧ 0x05 ≤ (0xFF : Byte).toNat ∧ 0x09 ≤ (0x09 : Byte).toNat := by decide

/-! ### Witnesses: the whole machine -/

/-- A reset block with one command on its port. -/
def loaded : State := { block 2 [0x7B, 0x00, 0x00, 0x7D] with cmd := [0x05, 0x00, 0x00, 0x00] }

theorem witness_EveryStepKeepsTheInvariant :
    invariant loaded = true ∧ step loaded = .next { after .deframe loaded with cmd := [] } := by
  exact ⟨by decide, rfl⟩

/-- A DEFRAME that appends to TX, DELIVER and EVENT. -/
theorem witness_OutputPortsOnlyGrow :
    step loaded = .next { after .deframe loaded with cmd := [] } ∧ decode loaded.cmd = .command .deframe [] ∧
    (after .deframe loaded).tx ≠ loaded.tx ∧ (after .deframe loaded).deliver ≠ loaded.deliver ∧
    (after .deframe loaded).event ≠ loaded.event := by
  exact ⟨rfl, by decide, by decide, by decide, by decide⟩

/-- Each way a command fails. -/
theorem witness_EveryCommandAnswersOnceAndFailuresHaveNoEffect :
    response (.regRd 0x09) State.reset = some ⟨.badReg, 0⟩ ∧
    response (.regWr 0x05 0) State.reset = some ⟨.badReg, 0⟩ ∧
    response (.regWr 0x00 4) State.reset = some ⟨.badConfig, 0⟩ ∧
    response (.rxPush [0x03, 0x04, 0x05]) small = some ⟨.rxOverflow, 0⟩ := by decide

theorem witness_ArqStateIsUnusedWhileArqIsOff :
    State.reset.ctrl[1] = false ∧ (∀ r, Instr.deframe ≠ .regRd r) ∧ Instr.deframe ≠ .softReset ∧
    exec .deframe State.reset = .next (after .deframe State.reset) := by
  exact ⟨by decide, by simp, by decide, rfl⟩

/-- SFN and WAIT change with an acknowledgment, ERFN with an in-order frame, WAIT with a SEND. -/
theorem witness_ArqBitsChangeOnlyByTheirRules :
    Instr.deframe ≠ .softReset ∧ exec .deframe awaiting = .next (after .deframe awaiting) ∧
    (after .deframe awaiting).sfn ≠ awaiting.sfn ∧ (after .deframe awaiting).wait ≠ awaiting.wait ∧
    exec .deframe loaded = .next (after .deframe loaded) ∧ (after .deframe loaded).erfn ≠ loaded.erfn ∧
    exec (.send [0x48, 0x69] 0) (block 3 []) = .next sent ∧ sent.wait ≠ (block 3 []).wait := by
  exact ⟨by decide, rfl, by decide, by decide, rfl, by decide, rfl, by decide⟩

theorem witness_ConfigurationAndBufferChangeOnlyByTheirCommands :
    exec (.tick 7) State.reset = .next (after (.tick 7) State.reset) ∧ (∀ r v, Instr.tick 7 ≠ .regWr r v) ∧
    (∀ d, Instr.tick 7 ≠ .rxPush d) ∧ Instr.tick 7 ≠ .deframe ∧ Instr.tick 7 ≠ .softReset ∧
    exec (.regWr 0x04 9) State.reset = .next (after (.regWr 0x04 9) State.reset) := by
  exact ⟨rfl, by simp, by simp, by decide, by decide, rfl⟩

end Sys2Proof.Tests
end

section
/-! The Checksum Engine: parity as a sum (R100), and the shift register as polynomial division over GF(2)
(R101 to R103). -/

namespace Sys2Proof.Machine

/-! ### Parity -/

/-- The fold of R100 over a running parity `p`: XOR of one-bit words is their sum. -/
theorem foldl_parity_eq_add (bs : Bytes) (p : BitVec 1) :
    bs.foldl (fun p b => p ^^^ BitVec.ofNat 1 (popcount b % 2)) p = p + BitVec.ofNat 1 (bs.map popcount).sum := by
  have xor_eq_add : ∀ x y : BitVec 1, x ^^^ y = x + y := by decide
  induction bs generalizing p with
  | nil => simp
  | cons b bs ih =>
    have mod_two : BitVec.ofNat 1 (popcount b % 2) = BitVec.ofNat 1 (popcount b) :=
      BitVec.eq_of_toNat_eq (by simp)
    rw [List.foldl_cons, ih, xor_eq_add, mod_two, List.map_cons, List.sum_cons, BitVec.ofNat_add, BitVec.add_assoc]

theorem parity_eq_ofNat_sum (bs : Bytes) : parity bs = BitVec.ofNat 1 (bs.map popcount).sum := by
  rw [parity, foldl_parity_eq_add]
  exact BitVec.zero_add _

/-- Settles O9: the parity is a function of the sum of the bytes' bit counts, which no order changes. -/
theorem parityIsTheSumOfAllBits : Obligations.ParityIsTheSumOfAllBits := by
  refine ⟨fun bs => ?_, rfl, fun bs bs' hperm => ?_, fun bs bs' hcounts => ?_⟩
  · rw [parity_eq_ofNat_sum, BitVec.toNat_ofNat, pow_one]
  · rw [parity_eq_ofNat_sum, parity_eq_ofNat_sum, (hperm.map popcount).sum_eq]
  · rw [parity_eq_ofNat_sum, parity_eq_ofNat_sum, hcounts]

/-! ### Register values as polynomials -/

open Polynomial

/-- A bit as a coefficient of GF(2). -/
def coeffOfBit (b : Bool) : ZMod 2 := if b then 1 else 0

@[simp] theorem coeffOfBit_false : coeffOfBit false = 0 := rfl

@[simp] theorem coeffOfBit_true : coeffOfBit true = 1 := rfl

/-- Addition over GF(2) is XOR (R110). -/
theorem coeffOfBit_xor (a b : Bool) : coeffOfBit (a ^^ b) = coeffOfBit a + coeffOfBit b := by
  revert a b
  decide

theorem polyOfVector_coeff {w : Nat} (v : BitVec w) (i : Nat) :
    (polyOfVector v).coeff i = coeffOfBit (v.getLsbD i) := by
  have term (k : Nat) : (if v.getLsbD k then (X : (ZMod 2)[X]) ^ k else 0).coeff i =
      if i = k then coeffOfBit (v.getLsbD k) else 0 := by
    cases v.getLsbD k <;> simp [coeff_X_pow]
  rw [polyOfVector, finsetSum_coeff]
  simp_rw [term]
  rw [Finset.sum_ite_eq]
  by_cases hi : i < w
  · simp [hi]
  · simp [hi, BitVec.getLsbD_of_ge v i (by omega)]

/-- Vectors of any two widths with the same bits have the same polynomial. -/
theorem polyOfVector_congr {v w : Nat} {a : BitVec v} {b : BitVec w}
    (h : ∀ i, a.getLsbD i = b.getLsbD i) : polyOfVector a = polyOfVector b := by
  ext i
  rw [polyOfVector_coeff, polyOfVector_coeff, h]

@[simp] theorem polyOfVector_zero {w : Nat} : polyOfVector 0#w = 0 := by
  ext i
  simp [polyOfVector_coeff]

theorem polyOfVector_xor {w : Nat} (a b : BitVec w) :
    polyOfVector (a ^^^ b) = polyOfVector a + polyOfVector b := by
  ext i
  rw [coeff_add, polyOfVector_coeff, polyOfVector_coeff, polyOfVector_coeff, BitVec.getLsbD_xor, coeffOfBit_xor]

/-- A generator with its leading bit set is monic of degree W-1 (R25). -/
theorem polyOfVector_monic_degree {w : Nat} {g : BitVec w} (hg : g.msb = true) :
    (polyOfVector g).Monic ∧ (polyOfVector g).degree = (w - 1 : Nat) := by
  have lead : (polyOfVector g).coeff (w - 1) = 1 := by
    rw [polyOfVector_coeff, ← BitVec.msb_eq_getLsbD_last, hg, coeffOfBit_true]
  have bound : (polyOfVector g).degree ≤ (w - 1 : Nat) := by
    rw [degree_le_iff_coeff_zero]
    intro m hm
    rw [polyOfVector_coeff, BitVec.getLsbD_of_ge g m (by have : w - 1 < m := Nat.cast_lt.1 hm; omega),
      coeffOfBit_false]
  exact ⟨monic_of_degree_le _ bound lead, degree_eq_of_le_of_coeff_ne_zero bound (by simp [lead])⟩

/-- A clear leading bit leaves only the low W-1 bits. -/
theorem getLsbD_of_msb_eq_false {w : Nat} {v : BitVec w} (hv : v.msb = false) {i : Nat} (hi : w - 1 ≤ i) :
    v.getLsbD i = false := by
  rcases hi.eq_or_lt with rfl | hlt
  · rwa [← BitVec.msb_eq_getLsbD_last]
  · exact BitVec.getLsbD_of_ge v i (by omega)

theorem polyOfVector_degree_lt {w : Nat} {v : BitVec w} (hv : v.msb = false) :
    (polyOfVector v).degree < (w - 1 : Nat) := by
  rw [degree_lt_iff_coeff_zero]
  intro m hm
  simp [polyOfVector_coeff, getLsbD_of_msb_eq_false hv hm]

/-- A register whose leading bit is clear is its own remainder. -/
theorem polyOfVector_modByMonic_self {w : Nat} {g v : BitVec w} (hg : g.msb = true) (hv : v.msb = false) :
    polyOfVector v %ₘ polyOfVector g = polyOfVector v := by
  obtain ⟨monic, degree⟩ := polyOfVector_monic_degree hg
  rw [modByMonic_eq_self_iff monic, degree]
  exact polyOfVector_degree_lt hv

/-! ### Bit streams as polynomials -/

@[simp] theorem polyOfBits_nil : polyOfBits [] = 0 := rfl

/-- One more bit of the stream: every power goes up by one (Horner's rule). -/
theorem polyOfBits_concat (m : List Bool) (b : Bool) :
    polyOfBits (m ++ [b]) = polyOfBits m * X + C (coeffOfBit b) := by
  have length : (m ++ [b]).length = m.length + 1 := List.length_append
  have earlier (k : Nat) (hk : k < m.length) :
      (if (m ++ [b]).getD k false then (X : (ZMod 2)[X]) ^ (m.length - k) else 0) =
        (if m.getD k false then X ^ (m.length - 1 - k) else 0) * X := by
    rw [List.getD_append _ _ _ _ hk, ite_mul, zero_mul, ← pow_succ, show m.length - 1 - k + 1 = m.length - k by omega]
  have last : (if (m ++ [b]).getD m.length false then (X : (ZMod 2)[X]) ^ (m.length - m.length) else 0) =
      C (coeffOfBit b) := by
    cases b <;> simp
  rw [polyOfBits, length, Nat.add_sub_cancel, Finset.sum_range_succ, last, polyOfBits, Finset.sum_mul,
    Finset.sum_congr rfl fun k hk => earlier k (Finset.mem_range.1 hk)]

theorem polyOfBits_append_zeros (m : List Bool) (n : Nat) :
    polyOfBits (m ++ List.replicate n false) = polyOfBits m * X ^ n := by
  induction n with
  | zero => simp
  | succ n ih =>
    rw [List.replicate_succ', ← List.append_assoc, polyOfBits_concat, ih, pow_succ, mul_assoc,
      coeffOfBit_false, map_zero, add_zero]

/-! ### The shift register -/

/-- Shifting a bit in multiplies by x and adds it, when no bit is lost at the top. -/
theorem polyOfVector_shiftIn {w : Nat} {r : BitVec w} (hw : 0 < w) (hr : r.msb = false) (b : Bool) :
    polyOfVector ((r <<< 1) ||| (BitVec.ofBool b).setWidth w) = polyOfVector r * X + C (coeffOfBit b) := by
  ext i
  rw [polyOfVector_coeff, coeff_add]
  cases i with
  | zero =>
    rw [mul_coeff_zero, coeff_X_zero, mul_zero, zero_add, coeff_C_zero]
    simp [hw]
  | succ i =>
    have shifted : ((r <<< 1) ||| (BitVec.ofBool b).setWidth w).getLsbD (i + 1) = r.getLsbD i := by
      by_cases hi : i + 1 < w
      · have low : i < w := by omega
        simp [hi, low]
      · rw [BitVec.getLsbD_of_ge _ _ (by omega), getLsbD_of_msb_eq_false hr (by omega)]
    rw [shifted, coeff_mul_X, polyOfVector_coeff, coeff_C_succ, add_zero]

/-- The note to R102: with the generator's leading bit set, a step leaves the register's leading bit clear. -/
theorem crcStep_msb {w : Nat} {g : BitVec w} (hg : g.msb = true) (r : BitVec w) (b : Bool) :
    (crcStep g r b).msb = false := by
  rw [crcStep]
  split
  next hmsb => rw [BitVec.msb_xor, hmsb, hg]; rfl
  next hmsb => exact Bool.eq_false_of_not_eq_true hmsb

/-- One step is one step of long division. -/
theorem polyOfVector_crcStep {w : Nat} {g r : BitVec w} (hw : 0 < w) (hg : g.msb = true) (hr : r.msb = false)
    (b : Bool) :
    polyOfVector (crcStep g r b) = (polyOfVector r * X + C (coeffOfBit b)) %ₘ polyOfVector g := by
  have reduced := polyOfVector_modByMonic_self hg (crcStep_msb hg r b)
  rw [← reduced, ← polyOfVector_shiftIn hw hr b, crcStep]
  split
  next =>
    obtain ⟨monic, -⟩ := polyOfVector_monic_degree hg
    rw [polyOfVector_xor, add_modByMonic, modByMonic_self monic, add_zero]
  next => rfl

/-- The remainder of `p * x + c` depends on the remainder of `p` only. -/
theorem modByMonic_mul_X_add_C_modByMonic {q : (ZMod 2)[X]} (hq : q.Monic) (p : (ZMod 2)[X]) (c : ZMod 2) :
    (p %ₘ q * X + C c) %ₘ q = (p * X + C c) %ₘ q := by
  refine modByMonic_eq_of_dvd_sub hq ⟨-(p /ₘ q * X), ?_⟩
  linear_combination X * modByMonic_add_div p q

/-- The invariant of R102: after any bits the register holds their remainder, and its leading bit is clear. -/
theorem foldl_crcStep {w : Nat} {g : BitVec w} (hw : 0 < w) (hg : g.msb = true) (m : List Bool) :
    (m.foldl (crcStep g) 0).msb = false ∧
      polyOfVector (m.foldl (crcStep g) 0) = polyOfBits m %ₘ polyOfVector g := by
  obtain ⟨monic, -⟩ := polyOfVector_monic_degree hg
  induction m using List.reverseRecOn with
  | nil => simp
  | append_singleton m b ih =>
    obtain ⟨clear, rem⟩ := ih
    rw [List.foldl_concat]
    refine ⟨crcStep_msb hg _ b, ?_⟩
    rw [polyOfVector_crcStep hw hg clear, rem, modByMonic_mul_X_add_C_modByMonic monic, polyOfBits_concat]

/-- Dropping a clear leading bit keeps the polynomial. -/
theorem polyOfVector_setWidth_pred {w : Nat} {v : BitVec w} (hv : v.msb = false) :
    polyOfVector (v.setWidth (w - 1)) = polyOfVector v := by
  refine polyOfVector_congr fun i => ?_
  rw [BitVec.getLsbD_setWidth]
  by_cases hi : i < w - 1
  · simp [hi]
  · simp [hi, getLsbD_of_msb_eq_false hv (not_lt.1 hi)]

/-- Settles O10: the register's invariant at the end of the message with its W-1 zero bits. -/
theorem crcIsThePolynomialRemainder : Obligations.CrcIsThePolynomialRemainder := by
  intro w g bs hw hg
  obtain ⟨clear, rem⟩ := foldl_crcStep (by omega) hg (bitstream bs ++ List.replicate (w - 1) false)
  rw [crc, polyOfVector_setWidth_pred clear, rem, polyOfBits_append_zeros]

end Sys2Proof.Machine
end

section
/-! The Deframer's scan: Seeking-Start (R144), and the recursion of the model against the rule's loop over
buffer positions (R143). -/

namespace Sys2Proof.Machine

/-! ### Seeking-Start -/

theorem scan_append {tags : Word} {garbage : Bytes} (h : tagStart tags ∉ garbage) (bs : Bytes) :
    scan tags (garbage ++ bs) = scan tags bs := by
  rw [scan, seekStart_append h, scan]

theorem scan_eq_empty_of_not_mem {tags : Word} {garbage : Bytes} (h : tagStart tags ∉ garbage) :
    scan tags garbage = ⟨[], [], none⟩ := by
  rw [← List.append_nil garbage, scan_append h]
  rfl

theorem deframeLoop_incomplete {s : State} (h : (scan s.tags s.rxbuf).content = none) (fuel : Nat) :
    deframeLoop (fuel + 1) s = (applyScan (scan s.tags s.rxbuf) s, 1) := by
  simp only [deframeLoop, h]

/-- A pass of the loop reads RXBUF through its scan only, and `applyScan` replaces it. -/
theorem deframeLoop_congr_scan {s : State} {xs ys : Bytes} (h : scan s.tags xs = scan s.tags ys) (fuel : Nat) :
    deframeLoop (fuel + 1) { s with rxbuf := xs } = deframeLoop (fuel + 1) { s with rxbuf := ys } := by
  have applied (r : Scan) : applyScan r { s with rxbuf := xs } = applyScan r { s with rxbuf := ys } := rfl
  simp only [deframeLoop, h, applied]

theorem execDeframe_congr_scan {s : State} {xs ys : Bytes} (h : scan s.tags xs = scan s.tags ys) :
    execDeframe { s with rxbuf := xs } = execDeframe { s with rxbuf := ys } := by
  have run : deframeLoop (xs.length + 1) { s with rxbuf := xs } = deframeLoop (ys.length + 1) { s with rxbuf := ys } :=
    calc
      _ = deframeLoop (xs.length + ys.length + 1) { s with rxbuf := xs } :=
        deframeLoop_fuel _ _ _ (by simp) (by dsimp only; omega)
      _ = deframeLoop (xs.length + ys.length + 1) { s with rxbuf := ys } := deframeLoop_congr_scan h _
      _ = _ := deframeLoop_fuel _ _ _ (by dsimp only; omega) (by simp)
  rw [execDeframe, run, execDeframe]

/-- Settles O25: bytes before the first START do not change the scan, and DEFRAME reads RXBUF through it. -/
theorem seekingStartDiscardsEverythingBeforeStart : Obligations.SeekingStartDiscardsEverythingBeforeStart := by
  intro s garbage h
  have empty := scan_eq_empty_of_not_mem h
  refine ⟨?_, fun rest => execDeframe_congr_scan (scan_append h _)⟩
  rw [exec, execDeframe, deframeLoop_incomplete (by simp [empty])]
  simp [empty, finish, respond, applyScan]

/-! ### The scan by positions -/

theorem findIdx?_start_eq_none {tags : Word} {garbage : Bytes} (h : tagStart tags ∉ garbage) :
    garbage.findIdx? (fun b => b == tagStart tags) = none :=
  List.findIdx?_eq_none_iff.2 fun _ hb => beq_false_of_ne (ne_of_mem_of_not_mem hb h)

/-- The least index of a START stands right after the bytes that hold none. -/
theorem scanByPositions_append_start {tags : Word} {garbage : Bytes} (h : tagStart tags ∉ garbage) (rest : Bytes) :
    scanByPositions tags (garbage ++ tagStart tags :: rest) =
      scanPositions tags (rest.length + 1) (tagStart tags :: rest) [] 1 [] := by
  have least : (garbage ++ tagStart tags :: rest).findIdx? (fun b => b == tagStart tags) = some garbage.length := by
    rw [List.findIdx?_append, findIdx?_start_eq_none h]
    simp [List.findIdx?_cons]
  rw [scanByPositions, least]
  simp

theorem scanByPositions_eq_empty_of_not_mem {tags : Word} {garbage : Bytes} (h : tagStart tags ∉ garbage) :
    scanByPositions tags garbage = ⟨[], [], none⟩ := by
  rw [scanByPositions, findIdx?_start_eq_none h]

/-- With the bytes `read` before its cursor, the loop of R143 does what the model's recursion does on the
`rest`; a pass takes at least one of these, so fuel above their number does not run out. -/
theorem scanPositions_eq_accumulate (tags : Word) (rest frame acc read : Bytes) (hframe : frame = read ++ rest)
    (fuel : Nat) (hfuel : rest.length < fuel) (events : List Event) :
    scanPositions tags fuel frame acc read.length events =
      { accumulate tags rest frame acc with events := events ++ (accumulate tags rest frame acc).events } := by
  induction rest, frame, acc using accumulate.induct (tags := tags) generalizing read fuel events with
    obtain ⟨fuel, rfl⟩ := Nat.exists_eq_add_one_of_ne_zero (Nat.ne_zero_of_lt hfuel)
  | case1 frame acc => simp [scanPositions, hframe]
  | case2 frame acc => simp [scanPositions, accumulate_esc_nil, hframe]
  | case3 frame acc c rest ih =>
    have later := ih (read ++ [tagEsc tags, c]) (by simp [hframe]) fuel (by simp at hfuel; omega) events
    rw [accumulate_esc, ← later]
    simp [scanPositions, hframe]
  | case4 rest frame acc hesc => simp [scanPositions, accumulate_stop hesc, hesc, hframe]
  | case5 rest frame acc hesc hstop ih =>
    have later := ih [tagStart tags] rfl fuel (by simpa using hfuel) (events ++ [.frameDamaged .resync])
    rw [accumulate_restart hesc hstop]
    simpa [scanPositions, hesc, hstop, hframe] using later
  | case6 b rest frame acc hesc hstop hstart ih =>
    have later := ih (read ++ [b]) (by simp [hframe]) fuel (by simpa using hfuel) events
    rw [accumulate_other hesc hstop hstart, ← later]
    simp [scanPositions, hesc, hstop, hstart, hframe]

/-- Settles O24: both scans skip to the first START and then agree byte by byte. -/
theorem scanFollowsTheBufferPositions : Obligations.ScanFollowsTheBufferPositions := by
  intro tags rxbuf
  by_cases h : tagStart tags ∈ rxbuf
  · obtain ⟨garbage, rest, rfl, hg⟩ := List.eq_append_cons_of_mem h
    rw [scan_append hg, scan_start, scanByPositions_append_start hg]
    exact (scanPositions_eq_accumulate tags rest _ [] [tagStart tags] rfl _ (Nat.lt_succ_self _) []).symm
  · rw [scan_eq_empty_of_not_mem h, scanByPositions_eq_empty_of_not_mem h]

end Sys2Proof.Machine
end

section
/-! The ARQ Controller: SEND while AwaitingAck (R172), and an acknowledgment as the frame a DEFRAME completes
(R173, R174). -/

namespace Sys2Proof.Machine

/-! ### Sending -/

/-- With ARQ on, SEND is `arqSend` (R126). -/
theorem execSend_arq {s : State} (harq : arqEnabled s.ctrl = true) (p : Bytes) (now : Word) :
    execSend p now s = finish (arqSend p now s) := by
  rw [execSend, if_pos harq]

/-- Settles O22: the refusal of `arqSend` leaves only the response to record. -/
theorem arqSendWhileAwaitingIsRefused : Obligations.ArqSendWhileAwaitingIsRefused := by
  intro p now s harq hwait
  rw [exec, execSend_arq harq, arqSend_awaiting p now hwait]
  rfl

/-! ### Receiving an acknowledgment -/

/-- With ARQ on, content that is the single byte ACK is an acknowledgment (R151). -/
theorem resolveFrame_ack {s : State} (harq : arqEnabled s.ctrl = true) :
    resolveFrame [tagAck s.tags] s = (onAckReceived s, .ackConsumed) := by
  rw [resolveFrame, if_pos harq, resolveArq_ack]

/-- A pass of the loop that resolves an acknowledgment is the last one, and answers ACK_CONSUMED (R142). -/
theorem deframeLoop_ackConsumed {s u : State} {acc : Bytes} (hscan : (scan s.tags s.rxbuf).content = some acc)
    (hres : resolveFrame acc (applyScan (scan s.tags s.rxbuf) s) = (u, .ackConsumed)) (fuel : Nat) :
    deframeLoop (fuel + 1) s = (u, 2) := by
  simp only [deframeLoop, hscan, hres]

/-- A DEFRAME whose scan ends at an acknowledgment hands it to the ARQ Controller, in either of its states. -/
theorem execDeframe_ack {s : State} {ev : List Event} {buf : Bytes} (harq : arqEnabled s.ctrl = true)
    (hscan : scan s.tags s.rxbuf = ⟨ev, buf, some [tagAck s.tags]⟩) :
    execDeframe s = finish (onAckReceived (applyScan ⟨ev, buf, some [tagAck s.tags]⟩ s), 2) := by
  rw [execDeframe, deframeLoop_ackConsumed (congrArg Scan.content hscan) (resolveFrame_ack harq), hscan]

/-- Settles O29: `onAckReceived` in AwaitingAck, behind the scan's events. -/
theorem acknowledgmentCompletesTheOutstandingFrame : Obligations.AcknowledgmentCompletesTheOutstandingFrame := by
  intro s ev buf harq hwait hscan
  rw [exec, execDeframe_ack harq hscan, onAckReceived_awaiting ((applyScan_wait _ s).trans hwait)]
  rfl

/-- Settles O30: `onAckReceived` in Idle, behind the scan's events. -/
theorem acknowledgmentInIdleChangesNoArqState : Obligations.AcknowledgmentInIdleChangesNoArqState := by
  intro s ev buf harq hwait hscan
  rw [exec, execDeframe_ack harq hscan, onAckReceived_idle ((applyScan_wait _ s).trans hwait)]
  rfl

end Sys2Proof.Machine
end

section
/-! The control registers: what a write of REG_WR does by its register and value (R201), which values the checked
registers take (R202 to R205), and that a legal MAXFRAME leaves no sub-frame of a non-empty payload empty (R204). -/

namespace Sys2Proof.Machine

/-! ### Register writes and reads by register number -/

/-- A value that passes its check is written (R201). -/
theorem exec_regWr_accepted {r : Byte} {reg : Reg} (hr : regOf r = some reg) {v : Word}
    (hv : writeStatus reg v = .ok) (s : State) :
    exec (.regWr r v) s = finish (writeReg reg v s, 0) := by
  simp only [exec, execRegWr, hr, hv, if_true]

/-- A value that does not pass its check is refused with the check's status (R201). -/
theorem exec_regWr_refused {r : Byte} {reg : Reg} (hr : regOf r = some reg) {v : Word}
    (hv : writeStatus reg v ≠ .ok) (s : State) :
    exec (.regWr r v) s = fail (writeStatus reg v) s := by
  simp only [exec, execRegWr, hr, if_neg hv]

theorem exec_regWr_unmapped {r : Byte} (hr : regOf r = none) (v : Word) (s : State) :
    exec (.regWr r v) s = fail .badReg s := by
  simp only [exec, execRegWr, hr]

theorem exec_regRd_unmapped {r : Byte} (hr : regOf r = none) (s : State) : exec (.regRd r) s = fail .badReg s := by
  simp only [exec, execRegRd, hr]

/-- A write to a register whose check is the test `legal` of the value: written, or BAD_CONFIG. -/
theorem exec_regWr_checked {r : Byte} {reg : Reg} (hr : regOf r = some reg) {legal : Bool} {v : Word}
    (hv : writeStatus reg v = if legal then .ok else .badConfig) (s : State) :
    exec (.regWr r v) s = if legal then finish (writeReg reg v s, 0) else fail .badConfig s := by
  cases legal with
  | true => exact exec_regWr_accepted hr hv s
  | false =>
    have hbad : writeStatus reg v = .badConfig := hv
    have hne : writeStatus reg v ≠ .ok := by simp [hbad]
    exact hbad ▸ exec_regWr_refused hr hne s

/-- The mapped registers from 0x05 on are the read-only views (R20, R207). -/
theorem writeStatus_of_readOnly {r : Byte} {reg : Reg} (hr : regOf r = some reg) (h5 : 5 ≤ r.toNat) (v : Word) :
    writeStatus reg v = .badReg := by
  have h9 : ¬ 9 ≤ r.toNat := fun h => by simp [(regOf_eq_none_iff r).2 h] at hr
  obtain h | h | h | h : r.toNat = 5 ∨ r.toNat = 6 ∨ r.toNat = 7 ∨ r.toNat = 8 := by omega
  all_goals
    simp only [regOf, h, Option.some.injEq] at hr
    subst hr
    rfl

/-! ### Legal values as numbers -/

/-- Bits [31:2] are 0 (R202). -/
theorem ctrlLegal_iff (v : Word) : ctrlLegal v = true ↔ v.toNat < 4 := by
  have hv := v.isLt
  simp only [ctrlLegal, beq_iff_eq, ← BitVec.toNat_inj, BitVec.extractLsb'_toNat, Nat.shiftRight_eq_div_pow,
    BitVec.ofNat_eq_ofNat, BitVec.toNat_ofNat]
  omega

/-- The six inequalities of R203 say that the list of tags has no duplicate. -/
theorem tagsLegal_iff_nodup (v : Word) : tagsLegal v = true ↔
    [v.extractLsb' 0 8, v.extractLsb' 8 8, v.extractLsb' 16 8, v.extractLsb' 24 8].Nodup := by
  simp [tagsLegal_iff, tagStart, tagStop, tagEsc, tagAck, and_assoc]

theorem maxFrameSize_eq_mod (v : Word) : maxFrameSize v = v.toNat % 65536 := by
  simp [maxFrameSize, BitVec.extractLsb'_toNat]

/-- Bits [31:16] are 0 and M is not (R204). -/
theorem maxframeLegal_iff (v : Word) : maxframeLegal v = true ↔ 1 ≤ v.toNat ∧ v.toNat ≤ 65535 := by
  have hv := v.isLt
  simp only [maxframeLegal, Bool.and_eq_true, beq_iff_eq, bne_iff_ne, ← BitVec.toNat_inj, maxFrameSize_eq_mod,
    BitVec.extractLsb'_toNat, Nat.shiftRight_eq_div_pow, BitVec.ofNat_eq_ofNat, BitVec.toNat_ofNat]
  omega

/-- The leading bit of a number below `2 ^ w` is set exactly in the upper half of the range. -/
theorem testBit_pred_iff {w g : Nat} (hw : 0 < w) (hg : g < 2 ^ w) :
    g.testBit (w - 1) = true ↔ 2 ^ (w - 1) ≤ g := by
  have hg' : g < 2 ^ (w - 1 + 1) := by rwa [Nat.sub_add_cancel hw]
  exact ⟨Nat.ge_two_pow_of_testBit, fun hle => Nat.testBit_of_two_pow_le_and_two_pow_add_one_gt hle hg'⟩

theorem crcWidth_eq_div_mod (v : Word) : crcWidth v = v.toNat / 65536 % 16 := by
  simp [crcWidth, BitVec.extractLsb'_toNat, Nat.shiftRight_eq_div_pow]

theorem crcPoly_toNat (v : Word) : (crcPoly v).toNat = v.toNat % 512 := by
  simp [crcPoly, BitVec.extractLsb'_toNat]

/-- The reserved bits [31:20] and [15:9] are 0 exactly when the fields of R25 make up the whole value. -/
theorem crccfg_reserved_iff (v : Word) : v.extractLsb' 20 12 = 0 ∧ v.extractLsb' 9 7 = 0 ↔
    v.toNat = crcWidth v * 65536 + (crcPoly v).toNat := by
  have hv := v.isLt
  simp only [← BitVec.toNat_inj, crcWidth_eq_div_mod, crcPoly_toNat,
    BitVec.extractLsb'_toNat, Nat.shiftRight_eq_div_pow, BitVec.ofNat_eq_ofNat, BitVec.toNat_ofNat]
  omega

/-- `crccfgLegal` as R205's conditions on the two fields. -/
theorem crccfgLegal_iff_fields (v : Word) : crccfgLegal v = true ↔
    v.toNat = crcWidth v * 65536 + (crcPoly v).toNat ∧ 2 ≤ crcWidth v ∧ crcWidth v ≤ 9 ∧
    2 ^ (crcWidth v - 1) ≤ (crcPoly v).toNat ∧ (crcPoly v).toNat < 2 ^ crcWidth v := by
  simp only [crccfgLegal, Bool.and_eq_true, beq_iff_eq, decide_eq_true_eq, crccfg_reserved_iff, BitVec.getLsbD]
  constructor
  · rintro ⟨⟨⟨⟨hv, h2⟩, h9⟩, hhi⟩, hbit⟩
    exact ⟨hv, h2, h9, (testBit_pred_iff (by omega) hhi).1 hbit, hhi⟩
  · rintro ⟨hv, h2, h9, hlo, hhi⟩
    exact ⟨⟨⟨⟨hv, h2⟩, h9⟩, hhi⟩, (testBit_pred_iff (by omega) hhi).2 hlo⟩

/-- The legal values of CRCCFG, built from a width and a generator (R205). -/
theorem crccfgLegal_iff (v : Word) : crccfgLegal v = true ↔
    ∃ w g, 2 ≤ w ∧ w ≤ 9 ∧ 2 ^ (w - 1) ≤ g ∧ g < 2 ^ w ∧ v.toNat = w * 65536 + g := by
  rw [crccfgLegal_iff_fields]
  constructor
  · rintro ⟨hv, h2, h9, hlo, hhi⟩
    exact ⟨_, _, h2, h9, hlo, hhi, hv⟩
  · rintro ⟨w, g, h2, h9, hlo, hhi, hv⟩
    have hg : g < 2 ^ 9 := hhi.trans_le (Nat.pow_le_pow_right (by omega) h9)
    have hwidth : crcWidth v = w := by rw [crcWidth_eq_div_mod]; omega
    have hpoly : (crcPoly v).toNat = g := by rw [crcPoly_toNat]; omega
    simp only [hwidth, hpoly]
    exact ⟨hv, h2, h9, hlo, hhi⟩

/-! ### Slices of a payload -/

/-- A slice of length at least 1 is empty only where no byte is left, and there `chunksFuel` ends (R9, R204). -/
theorem nil_not_mem_chunksFuel {m : Nat} (hm : 0 < m) (fuel : Nat) (bs : Bytes) : [] ∉ chunksFuel m fuel bs := by
  induction fuel generalizing bs with
  | zero => simp [chunksFuel]
  | succ fuel ih =>
    cases bs with
    | nil => simp [chunksFuel]
    | cons b bs =>
      have htake : (b :: bs).take m ≠ [] := by simp [List.take_eq_nil_iff]; omega
      simp only [chunksFuel, List.mem_cons, not_or]
      exact ⟨htake.symm, ih _⟩

theorem nil_not_mem_subframes {p : Bytes} {m : Nat} (hp : p ≠ []) (hm : 0 < m) : [] ∉ subframes p m := by
  simpa [subframes, hp, chunks] using nil_not_mem_chunksFuel hm p.length p

/-! ### The checked registers -/

/-- Settles O46: `maxframeLegal` is the range of R204, in which M is the value itself and no slice is empty. -/
theorem maxframeWriteIsChecked : Obligations.MaxframeWriteIsChecked := by
  intro v s
  have hwr := exec_regWr_checked (r := 0x02) (reg := .maxframe) rfl (v := v) rfl s
  refine ⟨fun hv => ⟨?_, fun p hp => nil_not_mem_subframes hp ?_⟩, fun hv => ?_⟩
  · rw [hwr, if_pos ((maxframeLegal_iff v).2 hv)]
    rfl
  · rw [maxFrameSize_eq_mod]
    omega
  · rw [hwr, if_neg (by rw [maxframeLegal_iff]; omega)]
    rfl

/-- Settles O47: the legal values are those `crccfgLegal_iff` builds, and the examples compute. -/
theorem crccfgWriteIsChecked : Obligations.CrccfgWriteIsChecked := by
  have hwr (v : Word) (s : State) := exec_regWr_checked (r := 0x03) (reg := .crccfg) rfl (v := v) rfl s
  refine ⟨fun w g s h2 h9 hlo hhi => ?_, fun v s hv => ?_, by decide, by decide, by decide, by decide⟩
  · have hg : g < 2 ^ 9 := hhi.trans_le (Nat.pow_le_pow_right (by omega) h9)
    have hval : (BitVec.ofNat 32 (w * 65536 + g)).toNat = w * 65536 + g :=
      Nat.mod_eq_of_lt (by omega)
    rw [hwr, if_pos ((crccfgLegal_iff _).2 ⟨w, g, h2, h9, hlo, hhi, hval⟩)]
    rfl
  · have hillegal : ¬ crccfgLegal v = true := by
      rw [crccfgLegal_iff]
      rintro ⟨w, g, h2, h9, hlo, hhi, hval⟩
      exact hv w g h2 h9 hlo hhi hval
    rw [hwr, if_neg hillegal]
    rfl

/-- Settles O44: `ctrlLegal` holds exactly below 4, and the write reaches CTRL alone. -/
theorem ctrlWriteIsChecked : Obligations.CtrlWriteIsChecked := by
  intro v s
  have hwr := exec_regWr_checked (r := 0x00) (reg := .ctrl) rfl (v := v) rfl s
  refine ⟨fun hv => ?_, fun hv => ?_⟩
  · rw [hwr, if_pos ((ctrlLegal_iff v).2 hv)]
    rfl
  · rw [hwr, if_neg (by rw [ctrlLegal_iff]; omega)]
    rfl

/-- Settles O45: `tagsLegal` is the list's having no duplicate. -/
theorem tagsWriteIsChecked : Obligations.TagsWriteIsChecked := by
  intro v s
  have hwr := exec_regWr_checked (r := 0x01) (reg := .tags) rfl (v := v) rfl s
  rw [← tagsLegal_iff_nodup]
  refine ⟨fun hv => ?_, fun hv => ?_⟩
  · rw [hwr, if_pos hv]
    rfl
  · rw [hwr, if_neg hv]
    rfl

/-! ### Registers without a check, and without a write -/

/-- Settles O48: `writeStatus` of TIMEOUT is OK for every value. -/
theorem timeoutWriteIsUnchecked : Obligations.TimeoutWriteIsUnchecked :=
  fun _ s => exec_regWr_accepted (r := 0x04) (reg := .timeout) rfl rfl s

/-- Settles O49: from 0x05 on a number is unmapped or names a view, and from 0x09 on it is unmapped. -/
theorem readOnlyAndUnmappedRegistersAnswerBadReg : Obligations.ReadOnlyAndUnmappedRegistersAnswerBadReg := by
  refine fun r s => ⟨fun h5 v => ?_, fun h9 => exec_regRd_unmapped ((regOf_eq_none_iff r).2 h9) s⟩
  cases hr : regOf r with
  | none => exact exec_regWr_unmapped hr v s
  | some reg =>
    have hbad := writeStatus_of_readOnly hr h5 v
    rw [exec_regWr_refused hr (by simp [hbad]), hbad]
    rfl

end Sys2Proof.Machine
end

section
/-! SOFT_RESET: link startup without a power cycle (R208, R241). -/

namespace Sys2Proof.Machine

/-- SOFT_RESET is `resetLink`, answered with result 0 (R208). -/
theorem exec_softReset (s : State) : exec .softReset s = finish (resetLink s, 0) := by
  rw [exec, execSoftReset]

/-- Settles O50: `resetLink` names the six fields that change (R241), and the response is recorded behind the
earlier ones, which it keeps. -/
theorem softResetClearsTheLinkState : Obligations.SoftResetClearsTheLinkState := by
  intro s
  rw [exec_softReset, finish, respond, resetLink_resp, resetLink]

end Sys2Proof.Machine
end

section
/-! The decoder and the encoder: what the mask of a row fixes in a header (R83), the operands as they stand behind
it (R81, R82), and the round trip in both directions. -/

namespace Sys2Proof

/-! ### What a row's mask fixes -/

/-- A field of a header under its row's mask is that field of the row's match. -/
theorem extract_and_extract_mask {h : Word} {op : Opcode} (hm : h &&& opcodeMask op = opcodePattern op)
    (start len : Nat) :
    h.extractLsb' start len &&& (opcodeMask op).extractLsb' start len = (opcodePattern op).extractLsb' start len := by
  rw [← BitVec.extractLsb'_and, hm]

/-- Every mask covers OPC, so a header that meets a row has the row's code. -/
theorem headerOpc_of_match {h : Word} {op : Opcode} (hm : h &&& opcodeMask op = opcodePattern op) :
    headerOpc h = opcodeCode op := by
  have field := extract_and_extract_mask hm 24 8
  have covered : (opcodeMask op).extractLsb' 24 8 = BitVec.allOnes 8 := by cases op <;> decide
  have code : (opcodePattern op).extractLsb' 24 8 = opcodeCode op := by cases op <;> decide
  rwa [covered, BitVec.and_allOnes, code] at field

/-- The rows whose format has the argument A (R82). -/
def takesArg : Opcode → Bool
  | .chkVerify => true
  | .regRd => true
  | .regWr => true
  | _ => false

theorem headerArg_of_match {h : Word} {op : Opcode} (hm : h &&& opcodeMask op = opcodePattern op)
    (harg : takesArg op = false) : headerArg h = 0 := by
  have field := extract_and_extract_mask hm 16 8
  have covered : (opcodeMask op).extractLsb' 16 8 = BitVec.allOnes 8 := by
    revert harg
    cases op <;> decide
  have zero : (opcodePattern op).extractLsb' 16 8 = 0 := by cases op <;> decide
  rwa [covered, BitVec.and_allOnes, zero] at field

theorem headerLen_of_match {h : Word} {op : Opcode} (hm : h &&& opcodeMask op = opcodePattern op)
    (hdata : takesData (opcodeFormat op) = false) : headerLen h = 0 := by
  have field := extract_and_extract_mask hm 0 16
  have covered : (opcodeMask op).extractLsb' 0 16 = BitVec.allOnes 16 := by
    revert hdata
    cases op <;> decide
  have zero : (opcodePattern op).extractLsb' 0 16 = 0 := by cases op <;> decide
  rw [covered, BitVec.and_allOnes, zero] at field
  exact congrArg BitVec.toNat field

/-- The search of the decoder finds the row of a code. -/
theorem find?_opcodeCode (op : Opcode) : opcodes.find? (fun o => opcodeCode o == opcodeCode op) = some op := by
  cases op <;> decide

theorem decodeHeader_eq_ok_iff {h : Word} {op : Opcode} :
    decodeHeader h = .ok op ↔ h &&& opcodeMask op = opcodePattern op := by
  refine ⟨fun hd => (decodeHeader_ok hd).2, fun hm => ?_⟩
  rw [decodeHeader, headerOpc_of_match hm, find?_opcodeCode]
  exact if_pos hm

theorem exists_decodeHeader_eq_error {h : Word} (hno : ∀ op, decodeHeader h ≠ .ok op) :
    ∃ why, decodeHeader h = .error why := by
  cases hd : decodeHeader h with
  | error why => exact ⟨why, rfl⟩
  | ok op => exact absurd hd (hno op)

/-- Settles O4: `decodeHeader` accepts by match and mask, and the mask covers OPC, whose codes differ. -/
theorem headerSelectsItsRowByMatchAndMask : Obligations.HeaderSelectsItsRowByMatchAndMask := by
  intro h
  refine ⟨fun op => decodeHeader_eq_ok_iff, fun op op' hm hm' => ?_, fun hno => ?_⟩
  · exact opcodeCode_injective ((headerOpc_of_match hm).symm.trans (headerOpc_of_match hm'))
  · exact exists_decodeHeader_eq_error fun op hd => hno op (decodeHeader_eq_ok_iff.1 hd)

/-! ### The operands behind a header -/

/-- The operand word `V` of a row as bytes; none for the formats without one (R82). -/
def operandWord (op : Opcode) (v : Word) : Bytes := if takesWord (opcodeFormat op) then bytesOfWord v else []

theorem commandLength_eq (op : Opcode) (h : Word) (v : Word) :
    commandLength op h = 4 + dataLength op h + (operandWord op v).length := by
  rw [commandLength, operandWord]
  split <;> rfl

/-- The operand word is read from its own format only. -/
theorem assemble_of_not_takesWord {op : Opcode} (hw : takesWord (opcodeFormat op) = false) (a : Byte) (d : Bytes)
    (v v' : Word) : assemble op a d v = assemble op a d v' := by
  cases op <;> simp_all [assemble, opcodeFormat, takesWord]

theorem decode_of_illegal {h : Word} {why : DecodeError} (hd : decodeHeader h = .error why) (rest : Bytes) :
    decode (bytesOfWord h ++ rest) = .illegal why rest := by
  simp only [bytesOfWord, List.cons_append, List.nil_append, decode, wordOfBytes_extract, hd]

theorem decode_of_legal {h : Word} {op : Opcode} (hd : decodeHeader h = .ok op) (rest : Bytes) :
    decode (bytesOfWord h ++ rest) = decodeOperands op h rest := by
  simp only [bytesOfWord, List.cons_append, List.nil_append, decode, wordOfBytes_extract, hd]

/-- Bytes that hold a whole header are a word's bytes and what follows them. -/
theorem exists_bytesOfWord_append {bytes : Bytes} (hlen : 4 ≤ bytes.length) :
    ∃ h rest, bytes = bytesOfWord h ++ rest := by
  match bytes, hlen with
  | b3 :: b2 :: b1 :: b0 :: rest, _ =>
    exact ⟨wordOfBytes b3 b2 b1 b0, rest, by rw [bytesOfWord_wordOfBytes]; rfl⟩

/-- First `D`, then `V` (R81). -/
theorem decodeOperands_append {op : Opcode} {h : Word} {d : Bytes} (hd : d.length = dataLength op h) (v : Word)
    (rest : Bytes) :
    decodeOperands op h (d ++ operandWord op v ++ rest) = .command (assemble op (headerArg h) d v) rest := by
  have enough : dataLength op h ≤ (d ++ operandWord op v ++ rest).length := by simp; omega
  rw [decodeOperands, if_pos enough, ← hd, List.append_assoc, List.take_left, List.drop_left]
  cases hw : takesWord (opcodeFormat op) with
  | true => simp [operandWord, hw, bytesOfWord]
  | false => simp [operandWord, hw, assemble_of_not_takesWord hw (headerArg h) d v 0]

theorem decodeOperands_of_short {op : Opcode} {h : Word} {bytes : Bytes}
    (hshort : 4 + bytes.length < commandLength op h) : decodeOperands op h bytes = .incomplete := by
  rw [commandLength] at hshort
  rw [decodeOperands]
  by_cases hn : dataLength op h ≤ bytes.length
  · cases hw : takesWord (opcodeFormat op) with
    | false => simp [hw] at hshort; omega
    | true =>
      have few : (bytes.drop (dataLength op h)).length < 4 := by simp [hw] at hshort ⊢; omega
      simp only [if_pos hn, if_true]
      split
      · next heq => simp [heq] at few; omega
      · rfl
  · rw [if_neg hn]

/-- Bytes as long as the operands of a row are these operands and what follows them. -/
theorem exists_operands_append {op : Opcode} {h : Word} {bytes : Bytes}
    (hlen : commandLength op h ≤ 4 + bytes.length) :
    ∃ d v rest, d.length = dataLength op h ∧ bytes = d ++ operandWord op v ++ rest := by
  rw [commandLength] at hlen
  refine ⟨bytes.take (dataLength op h), ?_⟩
  have split_data := (List.take_append_drop (dataLength op h) bytes).symm
  have data_length : (bytes.take (dataLength op h)).length = dataLength op h := by simp; omega
  cases hw : takesWord (opcodeFormat op) with
  | false => exact ⟨0, bytes.drop (dataLength op h), data_length, by simp [operandWord, hw]⟩
  | true =>
    obtain ⟨v, rest, hv⟩ := exists_bytesOfWord_append (bytes := bytes.drop (dataLength op h))
      (by simp [hw] at hlen ⊢; omega)
    exact ⟨v, rest, data_length, by rw [operandWord, hw, if_pos rfl, List.append_assoc, ← hv]; exact split_data⟩

/-- A command that the decoder reads, taken apart: a legal header and the operands behind it. -/
theorem decode_eq_command {bytes rest : Bytes} {i : Instr} (hdec : decode bytes = .command i rest) :
    ∃ h op d v, decodeHeader h = .ok op ∧ d.length = dataLength op h ∧ i = assemble op (headerArg h) d v ∧
      bytes = bytesOfWord h ++ (d ++ operandWord op v ++ rest) := by
  obtain ⟨h, tail, rfl⟩ : ∃ h tail, bytes = bytesOfWord h ++ tail := by
    refine exists_bytesOfWord_append (not_lt.1 fun hlt => ?_)
    match bytes, hlt with
    | [], _ => cases hdec
    | [_], _ => cases hdec
    | [_, _], _ => cases hdec
    | [_, _, _], _ => cases hdec
  cases hd : decodeHeader h with
  | error why => simp [decode_of_illegal hd] at hdec
  | ok op =>
    rw [decode_of_legal hd] at hdec
    by_cases hlen : commandLength op h ≤ 4 + tail.length
    · obtain ⟨d, v, rest', hdlen, rfl⟩ := exists_operands_append hlen
      rw [decodeOperands_append hdlen, Decoded.command.injEq] at hdec
      obtain ⟨rfl, rfl⟩ := hdec
      exact ⟨h, op, d, v, hd, hdlen, rfl, rfl⟩
    · simp [decodeOperands_of_short (not_le.1 hlen)] at hdec

/-- Settles O6: the operands are there exactly from the command's length on. -/
theorem commandLengthFollowsFromHeader : Obligations.CommandLengthFollowsFromHeader := by
  intro h op rest hd
  refine ⟨?_, fun hshort => ?_, fun hlen => ?_⟩
  · cases op <;> rfl
  · rw [decode_of_legal hd, decodeOperands_of_short hshort]
  · obtain ⟨d, v, rest', hdlen, rfl⟩ := exists_operands_append hlen
    refine ⟨assemble op (headerArg h) d v, ?_⟩
    rw [decode_of_legal hd, decodeOperands_append hdlen,
      List.drop_left' (by rw [commandLength_eq op h v, List.length_append, hdlen]; omega)]

/-! ### The round trip -/

/-- The operand word of a command; 0 for the formats without one (R82). -/
def instrValue : Instr → Word
  | .send _ now => now
  | .tick now => now
  | .regWr _ v => v
  | _ => 0

theorem instrWord_eq (i : Instr) : instrWord i = operandWord (instrOpcode i) (instrValue i) := by
  cases i <;> rfl

/-- A command is its row, its argument, its bytes and its operand word. -/
theorem assemble_instrOpcode (i : Instr) : assemble (instrOpcode i) (instrArg i) i.data (instrValue i) = i := by
  cases i <;> rfl

theorem dataLength_header {i : Instr} (hwf : i.wellFormed = true) :
    dataLength (instrOpcode i) (header i) = i.data.length := by
  rw [dataLength, headerLen_header hwf]
  cases i <;> rfl

/-- Settles O1: the header is decoded as its row, and the operands behind it are those of the encoding. -/
theorem decodeReadsBackEveryEncoding : Obligations.DecodeReadsBackEveryEncoding := by
  intro i rest hwf
  rw [encode, List.append_assoc, List.append_assoc, decode_of_legal (decodeHeader_header i), instrWord_eq,
    ← List.append_assoc, decodeOperands_append (dataLength_header hwf).symm, headerArg_header, assemble_instrOpcode]

theorem instrOpcode_assemble (op : Opcode) (a : Byte) (d : Bytes) (v : Word) :
    instrOpcode (assemble op a d v) = op := by
  cases op <;> rfl

/-- A row without the argument A holds 0 there, and the assembled command has the argument of its header. -/
theorem instrArg_assemble {op : Opcode} {a : Byte} (ha : takesArg op = false → a = 0) (d : Bytes) (v : Word) :
    instrArg (assemble op a d v) = a := by
  cases op <;> simp_all [assemble, instrArg, takesArg]

theorem data_assemble {op : Opcode} {d : Bytes} (hd : takesData (opcodeFormat op) = false → d = []) (a : Byte)
    (v : Word) : (assemble op a d v).data = d := by
  cases op <;> simp_all [assemble, Instr.data, opcodeFormat, takesData]

theorem operandWord_instrValue_assemble (op : Opcode) (a : Byte) (d : Bytes) (v : Word) :
    operandWord op (instrValue (assemble op a d v)) = operandWord op v := by
  cases op <;> rfl

theorem headerLen_lt (h : Word) : headerLen h < 65536 := (h.extractLsb' 0 16).isLt

/-- A legal header announces what its row's data holds: its LEN is the length of the bytes (R81, R84). -/
theorem dataLength_eq_headerLen {h : Word} {op : Opcode} (hm : h &&& opcodeMask op = opcodePattern op) :
    dataLength op h = headerLen h := by
  rw [dataLength]
  split
  · rfl
  · next hdata => rw [headerLen_of_match hm (Bool.eq_false_of_not_eq_true hdata)]

/-- The header of the command assembled from a legal header is that header: no bit of it is dropped. -/
theorem header_assemble {h : Word} {op : Opcode} (hm : h &&& opcodeMask op = opcodePattern op) {d : Bytes}
    (hd : d.length = headerLen h) (hdata : (assemble op (headerArg h) d v).data = d) :
    header (assemble op (headerArg h) d v) = h := by
  rw [header, hdata, hd, instrOpcode_assemble, instrArg_assemble (headerArg_of_match hm), ← headerOpc_of_match hm,
    headerFields_eq]

/-- Settles O2: the command is assembled from all the fields of its header, so encoding it gives the bytes back. -/
theorem everyCommandHasOneEncoding : Obligations.EveryCommandHasOneEncoding := by
  intro bytes rest i hdec
  obtain ⟨h, op, d, v, hok, hdlen, rfl, rfl⟩ := decode_eq_command hdec
  have hm := decodeHeader_eq_ok_iff.1 hok
  have hlen : d.length = headerLen h := hdlen.trans (dataLength_eq_headerLen hm)
  have hdata : (assemble op (headerArg h) d v).data = d := by
    refine data_assemble (fun hno => List.eq_nil_of_length_eq_zero ?_) _ _
    rw [hlen, headerLen_of_match hm hno]
  refine ⟨?_, ?_⟩
  · have := headerLen_lt h
    simp only [Instr.wellFormed, Config.maxData, hdata, decide_eq_true_eq]
    omega
  · rw [encode, header_assemble hm hlen hdata, hdata, instrWord_eq, instrOpcode_assemble,
      operandWord_instrValue_assemble, List.append_assoc, List.append_assoc, List.append_assoc]

/-- Settles O3: the nine legal rows are encodings, which O1 reads back; the other headers are rejected by the search
or by the mask. -/
theorem workedEncodingsDecode : Obligations.WorkedEncodingsDecode :=
  have read (i : Instr) (hwf : i.wellFormed = true) := decodeReadsBackEveryEncoding i [] hwf
  ⟨read (.chkCompute [0x41, 0x42]) rfl, read (.chkVerify 0x77 [0x41, 0x42]) rfl, read (.send [0x48, 0x69] 0) rfl,
    read (.rxPush [0x7B, 0x40, 0x7D]) rfl, read .deframe rfl, read (.tick 101) rfl, read (.regRd 0x05) rfl,
    read (.regWr 0x00 2) rfl, read .softReset rfl, by decide, by decide, by decide, by decide⟩

end Sys2Proof
end

section
/-! DEFRAME: the scan of whole, cut and interrupted wire frames (R128, R145 to R149), one pass of the loop by its
outcome (R142, R150 to R152, R175), and what a whole run of the loop amounts to (R153 to R155). -/

namespace Sys2Proof.Machine

/-! ### The scan of wire frames -/

theorem wireFrame_append (ctrl tags : Word) (content rest : Bytes) : wireFrame ctrl tags content ++ rest =
    tagStart tags :: (stuff ctrl tags content ++ tagStop tags :: rest) := by
  simp [wireFrame]

/-- Settles O19: stuffed bytes are read back one for one, up to a STOP that no ESC precedes. -/
theorem scanRecoversWireFrameContent : Obligations.ScanRecoversWireFrameContent := by
  intro ctrl tags content rest htags
  obtain ⟨-, -, -, stop_ne_esc, -, -⟩ := (tagsLegal_iff tags).1 htags
  rw [wireFrame_append, scan_start, accumulate_stuff, accumulate_stop stop_ne_esc, List.nil_append]

/-- An acknowledgment frame is the wire frame of the byte ACK by the stuff set without ACK (R127). -/
theorem ackFrame_eq_wireFrame {tags : Word} (htags : tagsLegal tags = true) :
    ackFrame tags = wireFrame 0 tags [tagAck tags] := by
  obtain ⟨-, -, start_ne_ack, -, stop_ne_ack, esc_ne_ack⟩ := (tagsLegal_iff tags).1 htags
  simp [ackFrame, wireFrame, stuff, inStuffSet, arqEnabled, start_ne_ack.symm, stop_ne_ack.symm, esc_ne_ack.symm]

theorem scan_ackFrame {tags : Word} (htags : tagsLegal tags = true) (rest : Bytes) :
    scan tags (ackFrame tags ++ rest) = ⟨[], rest, some [tagAck tags]⟩ := by
  rw [ackFrame_eq_wireFrame htags]
  exact scanRecoversWireFrameContent 0 tags [tagAck tags] rest htags

theorem stuff_cons (ctrl tags : Word) (b : Byte) (bs : Bytes) : stuff ctrl tags (b :: bs) =
    (if inStuffSet ctrl tags b then [tagEsc tags, b] else [b]) ++ stuff ctrl tags bs := rfl

/-- Stuffed bytes cut anywhere, between an ESC and its byte too, complete no frame (R145, R149). -/
theorem accumulate_prefix_stuff {ctrl tags : Word} {content pre : Bytes} (hpre : pre <+: stuff ctrl tags content)
    (frame acc : Bytes) : accumulate tags pre frame acc = ⟨[], frame, none⟩ := by
  induction content generalizing pre acc with
  | nil => rw [List.prefix_nil.1 hpre, accumulate_nil]
  | cons b bs ih =>
    rw [stuff_cons] at hpre
    by_cases hb : inStuffSet ctrl tags b = true
    · rw [if_pos hb] at hpre
      match pre, hpre with
      | [], _ => exact accumulate_nil ..
      | [e], hpre =>
        obtain ⟨rfl, -⟩ := List.cons_prefix_cons.1 hpre
        exact accumulate_esc_nil ..
      | e :: c :: pre, hpre =>
        obtain ⟨rfl, hc⟩ := List.cons_prefix_cons.1 hpre
        obtain ⟨-, hrest⟩ := List.cons_prefix_cons.1 hc
        rw [accumulate_esc]
        exact ih hrest _
    · rw [if_neg hb] at hpre
      match pre, hpre with
      | [], _ => exact accumulate_nil ..
      | c :: pre, hpre =>
        obtain ⟨rfl, hrest⟩ := List.cons_prefix_cons.1 hpre
        simp only [inStuffSet, Bool.or_eq_true, beq_iff_eq, not_or] at hb
        obtain ⟨⟨⟨not_start, not_stop⟩, not_esc⟩, -⟩ := hb
        rw [accumulate_other not_esc not_stop not_start]
        exact ih hrest _

/-- A proper part of a wire frame stays in the buffer as it is. -/
theorem scan_cut_wireFrame {ctrl tags : Word} {content pre post : Bytes}
    (hcut : wireFrame ctrl tags content = pre ++ post) (hpre : pre ≠ []) (hpost : post ≠ []) :
    scan tags pre = ⟨[], pre, none⟩ := by
  obtain ⟨b, pre, rfl⟩ := List.exists_cons_of_ne_nil hpre
  obtain ⟨post, c, rfl⟩ := (List.eq_nil_or_concat' post).resolve_left hpost
  have hcut' : tagStart tags :: (stuff ctrl tags content ++ [tagStop tags]) = b :: (pre ++ post ++ [c]) := by
    simpa [wireFrame] using hcut
  obtain ⟨rfl, htail⟩ := List.cons.inj hcut'
  obtain ⟨hstuff, -⟩ := List.append_inj' htail rfl
  rw [scan_start, accumulate_prefix_stuff (hstuff ▸ List.prefix_append pre post)]

/-- A START after stuffed bytes begins the frame anew (R147). -/
theorem scan_restart {tags : Word} (htags : tagsLegal tags = true) (ctrl : Word) (cut rest : Bytes) :
    scan tags ([tagStart tags] ++ stuff ctrl tags cut ++ tagStart tags :: rest) =
      { scan tags (tagStart tags :: rest) with
        events := .frameDamaged .resync :: (scan tags (tagStart tags :: rest)).events } := by
  obtain ⟨start_ne_stop, start_ne_esc, -, -, -, -⟩ := (tagsLegal_iff tags).1 htags
  rw [List.append_assoc, List.singleton_append, scan_start, accumulate_stuff,
    accumulate_restart start_ne_esc start_ne_stop, scan_start]

/-! ### A scan that completes no frame -/

/-- What is left by a scan that completes no frame is scanned the same way again. In the hypothesis `frame` is what a
scan from the front reads up to `rest`. -/
theorem scan_rxbuf_accumulate {tags : Word} {rest frame acc : Bytes}
    (hframe : scan tags frame = accumulate tags rest frame acc)
    (hnone : (accumulate tags rest frame acc).content = none) :
    scan tags (accumulate tags rest frame acc).rxbuf = ⟨[], (accumulate tags rest frame acc).rxbuf, none⟩ := by
  induction rest, frame, acc using accumulate.induct (tags := tags) with
  | case1 frame acc => simpa using hframe
  | case2 frame acc => simpa [accumulate_esc_nil] using hframe
  | case3 frame acc c rest ih =>
    rw [accumulate_esc] at hframe hnone ⊢
    exact ih hframe hnone
  | case4 rest frame acc hesc => simp [accumulate_stop hesc] at hnone
  | case5 rest frame acc hesc hstop ih =>
    rw [accumulate_restart hesc hstop] at hnone ⊢
    exact ih (scan_start tags rest) hnone
  | case6 b rest frame acc hesc hstop hstart ih =>
    rw [accumulate_other hesc hstop hstart] at hframe hnone ⊢
    exact ih hframe hnone

theorem scan_eq_of_seekStart {tags : Word} {bs rest : Bytes} (h : seekStart tags bs = tagStart tags :: rest) :
    scan tags bs = accumulate tags rest (tagStart tags :: rest) [] := by
  rw [scan, h]

theorem scan_eq_of_seekStart_nil {tags : Word} {bs : Bytes} (h : seekStart tags bs = []) :
    scan tags bs = ⟨[], [], none⟩ := by
  rw [scan, h]

theorem scan_rxbuf_of_incomplete {tags : Word} {bs : Bytes} (hnone : (scan tags bs).content = none) :
    scan tags (scan tags bs).rxbuf = ⟨[], (scan tags bs).rxbuf, none⟩ := by
  rcases seekStart_eq_nil_or tags bs with h | ⟨rest, h⟩
  · rw [scan_eq_of_seekStart_nil h]
    rfl
  · rw [scan_eq_of_seekStart h] at hnone ⊢
    exact scan_rxbuf_accumulate (scan_start tags rest) hnone

/-- A buffer that its scan leaves as it is is empty or begins with START (R154). -/
theorem eq_nil_or_start_of_scan {tags : Word} {bs : Bytes} (h : scan tags bs = ⟨[], bs, none⟩) :
    bs = [] ∨ ∃ tail, bs = tagStart tags :: tail := by
  rcases seekStart_eq_nil_or tags bs with hseek | ⟨rest, hseek⟩
  · rw [scan_eq_of_seekStart_nil hseek, Scan.mk.injEq] at h
    exact .inl h.2.1.symm
  · have kept : bs <:+ tagStart tags :: rest := by
      have := (accumulate_rxbuf tags rest (tagStart tags :: rest) [] [] (tagStart tags) rfl).1
      rwa [← scan_eq_of_seekStart hseek, h] at this
    exact .inr ⟨rest, kept.eq_of_length_le (hseek ▸ seekStart_suffix tags bs).length_le⟩

/-! ### One pass of the loop -/

theorem resolveFrame_resp (acc : Bytes) (s : State) : (resolveFrame acc s).1.resp = s.resp := by
  rcases resolveFrame_cases acc s with ⟨_, h⟩ | ⟨_, _, h⟩ | ⟨_, _, h⟩ | ⟨_, _, h⟩ | ⟨_, _, h⟩ | ⟨_, h⟩ <;> rw [h]

/-- A damaged frame has no effect of its own (R152). -/
theorem resolveFrame_damaged {acc : Bytes} {s u : State} {why : Damage}
    (h : resolveFrame acc s = (u, .damaged why)) : u = s := by
  rcases resolveFrame_cases acc s with ⟨_, h'⟩ | ⟨_, _, h'⟩ | ⟨_, _, h'⟩ | ⟨_, _, h'⟩ | ⟨_, _, h'⟩ | ⟨_, h'⟩ <;>
    simp [h'] at h
  exact h.1.symm

/-- One pass that completes a frame goes on or ends by the frame's outcome (R142). -/
theorem deframeLoop_pass {s u : State} {r : Scan} {acc : Bytes} {o : Resolved} (hscan : scan s.tags s.rxbuf = r)
    (hacc : r.content = some acc) (hres : resolveFrame acc (applyScan r s) = (u, o)) (fuel : Nat) :
    (∀ why, o = .damaged why → deframeLoop (fuel + 1) s = deframeLoop fuel (emit (.frameDamaged why) u)) ∧
    (o = .payload → deframeLoop (fuel + 1) s = (u, 0)) ∧
    (o = .ackConsumed → deframeLoop (fuel + 1) s = (u, 2)) ∧
    (o = .duplicate → deframeLoop (fuel + 1) s = (u, 3)) := by
  simp only [deframeLoop, hscan, hacc, hres]
  refine ⟨?_, ?_, ?_, ?_⟩
  · rintro why rfl
    rfl
  all_goals
    rintro rfl
    rfl

/-- DEFRAME after one pass; after a damaged frame it is DEFRAME of what is left, whose fuel suffices (R154). -/
theorem execDeframe_pass {s u : State} {r : Scan} {acc : Bytes} {o : Resolved} (hscan : scan s.tags s.rxbuf = r)
    (hacc : r.content = some acc) (hres : resolveFrame acc (applyScan r s) = (u, o)) :
    (∀ why, o = .damaged why → execDeframe s = execDeframe (emit (.frameDamaged why) u)) ∧
    (o = .payload → execDeframe s = finish (u, 0)) ∧
    (o = .ackConsumed → execDeframe s = finish (u, 2)) ∧
    (o = .duplicate → execDeframe s = finish (u, 3)) := by
  obtain ⟨damaged, payload, ack, duplicate⟩ := deframeLoop_pass hscan hacc hres s.rxbuf.length
  refine ⟨fun why ho => ?_, fun ho => congrArg finish (payload ho), fun ho => congrArg finish (ack ho),
    fun ho => congrArg finish (duplicate ho)⟩
  have left : u.rxbuf = r.rxbuf := by simpa [hres] using resolveFrame_rxbuf acc (applyScan r s)
  have shrinks : r.rxbuf.length + 2 ≤ s.rxbuf.length :=
    hscan ▸ scan_content_shrinks (tags := s.tags) (by simp [hscan, hacc])
  rw [execDeframe, damaged why ho, execDeframe,
    deframeLoop_fuel _ ((emit (.frameDamaged why) u).rxbuf.length + 1) _ (by simp [left]; omega) (by simp)]

theorem execDeframe_incomplete {s : State} (h : (scan s.tags s.rxbuf).content = none) :
    execDeframe s = finish (applyScan (scan s.tags s.rxbuf) s, 1) := by
  rw [execDeframe, deframeLoop_incomplete h]

/-- Settles O26: one pass of the loop, and the fuel of the next DEFRAME. -/
theorem deframeUnfoldsItsLoop : Obligations.DeframeUnfoldsItsLoop := by
  intro s t
  refine ⟨fun hnone => execDeframe_incomplete hnone, fun acc u o hacc hres => ?_⟩
  have resp : u.resp = s.resp := by simpa [t, hres] using resolveFrame_resp acc t
  obtain ⟨damaged, payload, ack, duplicate⟩ := execDeframe_pass rfl hacc hres
  refine ⟨damaged, fun ho => ?_, fun ho => ?_, fun ho => ?_⟩
  · rw [exec, payload ho, ← resp]
    rfl
  · rw [exec, ack ho, ← resp]
    rfl
  · rw [exec, duplicate ho, ← resp]
    rfl

/-! ### Frames by their content -/

theorem resolveFrame_plain {s : State} (harq : arqEnabled s.ctrl = false) (acc : Bytes) :
    resolveFrame acc s = resolvePlain acc s := by
  rw [resolveFrame, harq]
  rfl

theorem resolveFrame_arq {s : State} (harq : arqEnabled s.ctrl = true) (acc : Bytes) :
    resolveFrame acc s = resolveArq acc s := by
  rw [resolveFrame, harq]
  rfl

/-- Settles O27: `resolvePlain` on no content, and on data with its last byte. -/
theorem plainFramesAreVerifiedAndDelivered : Obligations.PlainFramesAreVerifiedAndDelivered := by
  intro s ev buf acc harq hscan
  have resolve := resolveFrame_plain (s := applyScan ⟨ev, buf, some acc⟩ s) harq acc
  refine ⟨?_, ?_⟩
  · rintro rfl
    obtain ⟨damaged, -⟩ := execDeframe_pass hscan rfl (resolve.trans (resolvePlain_nil _))
    exact damaged .short rfl
  · rintro data c rfl
    rw [resolvePlain_append] at resolve
    refine ⟨fun hne => ?_, fun heq => ?_⟩
    · obtain ⟨damaged, -⟩ := execDeframe_pass hscan rfl (resolve.trans (if_neg hne))
      exact damaged .check rfl
    · obtain ⟨-, payload, -⟩ := execDeframe_pass hscan rfl (resolve.trans (if_pos heq))
      exact payload rfl

/-- Settles O28: `resolveArq` on short content, and on a payload with its sequence byte and its check byte. -/
theorem arqDataFramesAreAcknowledgedAndDeliveredInOrder :
    Obligations.ArqDataFramesAreAcknowledgedAndDeliveredInOrder := by
  intro s ev buf acc harq hack hscan
  have resolve := resolveFrame_arq (s := applyScan ⟨ev, buf, some acc⟩ s) harq acc
  refine ⟨fun hshort => ?_, ?_⟩
  · obtain ⟨damaged, -⟩ := execDeframe_pass hscan rfl (resolve.trans (resolveArq_short hack hshort))
    exact damaged .short rfl
  · rintro p seq c rfl
    rw [resolveArq_append] at resolve
    refine ⟨fun hne => ?_, fun heq hseq => ?_, fun heq hseq => ?_⟩
    · obtain ⟨damaged, -⟩ := execDeframe_pass hscan rfl (resolve.trans (if_neg hne))
      exact damaged .check rfl
    · obtain ⟨-, payload, -⟩ := execDeframe_pass hscan rfl
        ((resolve.trans (if_pos heq)).trans (onDataReceived_expected p hseq))
      rw [exec, payload rfl]
      simp [finish, respond, applyScan, ackFrame]
    · obtain ⟨-, -, -, duplicate⟩ := execDeframe_pass hscan rfl
        ((resolve.trans (if_pos heq)).trans (onDataReceived_unexpected p hseq))
      exact duplicate rfl

/-! ### Partial frames -/

/-- A buffer that its scan leaves as it is waits, and DEFRAME changes nothing (R155). -/
theorem execDeframe_partial {s : State} (h : scan s.tags s.rxbuf = ⟨[], s.rxbuf, none⟩) :
    execDeframe s = finish (s, 1) := by
  have kept : applyScan ⟨[], s.rxbuf, none⟩ s = s := by
    rw [applyScan, List.append_nil]
  rw [execDeframe_incomplete (congrArg Scan.content h), h, kept]

/-- Settles O33: a cut wire frame is left as it is by its scan. -/
theorem cutWireFrameWaitsInTheBuffer : Obligations.CutWireFrameWaitsInTheBuffer := by
  rintro s ctrl content pre post - hcut hpre hpost rfl
  exact execDeframe_partial (scan_cut_wireFrame hcut hpre hpost)

/-- DEFRAME reads RXBUF and EVENT through the scan and its effect only. -/
theorem execDeframe_congr_applyScan {s t : State}
    (hcontent : (scan s.tags s.rxbuf).content = (scan t.tags t.rxbuf).content)
    (happly : applyScan (scan s.tags s.rxbuf) s = applyScan (scan t.tags t.rxbuf) t) :
    execDeframe s = execDeframe t := by
  have pass (fuel : Nat) : deframeLoop (fuel + 1) s = deframeLoop (fuel + 1) t := by
    simp only [deframeLoop, hcontent, happly]
  have run : deframeLoop (s.rxbuf.length + 1) s = deframeLoop (t.rxbuf.length + 1) t :=
    calc
      _ = deframeLoop (s.rxbuf.length + t.rxbuf.length + 1) s := deframeLoop_fuel _ _ _ (by omega) (by omega)
      _ = deframeLoop (s.rxbuf.length + t.rxbuf.length + 1) t := pass _
      _ = _ := deframeLoop_fuel _ _ _ (by omega) (by omega)
  rw [execDeframe, run, execDeframe]

/-- Settles O34: the scan from the new START, behind the event of R147. -/
theorem newStartResynchronizes : Obligations.NewStartResynchronizes := by
  intro s ctrl cut rest htags
  have restart := scan_restart htags ctrl cut rest
  refine execDeframe_congr_applyScan ?_ ?_
  · simp only [restart]
  · simp only [restart, applyScan]
    rw [List.append_cons]

/-! ### The whole loop -/

/-- What the passes before the last one leave is a scan's effect: bytes removed at the front of RXBUF, and events. -/
theorem applyScan_emit_applyScan (r r' : Scan) (e : Event) (s : State) :
    applyScan r' (emit e (applyScan r s)) = applyScan { r' with events := r.events ++ [e] ++ r'.events } s := by
  simp [applyScan, emit]

/-- A run of the loop ends at a buffer whose scan leaves it as it is, or at a frame that is not damaged; before its
end it has removed bytes at the front of RXBUF and emitted events (R142, R153, R154). -/
theorem deframeLoop_cases {fuel : Nat} {s : State} (hfuel : s.rxbuf.length < fuel) :
    ∃ r : Scan, r.rxbuf <:+ s.rxbuf ∧
      ((scan s.tags r.rxbuf = ⟨[], r.rxbuf, none⟩ ∧ deframeLoop fuel s = (applyScan r s, 1)) ∨
       ∃ acc u o, resolveFrame acc (applyScan r s) = (u, o) ∧
        ((o = .payload ∧ deframeLoop fuel s = (u, 0)) ∨ (o = .ackConsumed ∧ deframeLoop fuel s = (u, 2)) ∨
         (o = .duplicate ∧ deframeLoop fuel s = (u, 3)))) := by
  induction fuel generalizing s with
  | zero => exact absurd hfuel (Nat.not_lt_zero _)
  | succ fuel ih =>
    have hsuffix := scan_rxbuf_suffix s.tags s.rxbuf
    cases hacc : (scan s.tags s.rxbuf).content with
    | none =>
      exact ⟨scan s.tags s.rxbuf, hsuffix, .inl ⟨scan_rxbuf_of_incomplete hacc, deframeLoop_incomplete hacc fuel⟩⟩
    | some acc =>
      obtain ⟨u, o, hres⟩ : ∃ u o, resolveFrame acc (applyScan (scan s.tags s.rxbuf) s) = (u, o) := ⟨_, _, rfl⟩
      obtain ⟨damaged, payload, ack, duplicate⟩ := deframeLoop_pass rfl hacc hres fuel
      cases o with
      | payload => exact ⟨_, hsuffix, .inr ⟨acc, u, _, hres, .inl ⟨rfl, payload rfl⟩⟩⟩
      | ackConsumed => exact ⟨_, hsuffix, .inr ⟨acc, u, _, hres, .inr (.inl ⟨rfl, ack rfl⟩)⟩⟩
      | duplicate => exact ⟨_, hsuffix, .inr ⟨acc, u, _, hres, .inr (.inr ⟨rfl, duplicate rfl⟩)⟩⟩
      | damaged why =>
        obtain rfl := resolveFrame_damaged hres
        have shrinks := scan_content_shrinks (tags := s.tags) (bs := s.rxbuf) (by simp [hacc])
        rw [damaged why rfl]
        obtain ⟨r', hsuffix', hend⟩ :=
          ih (s := emit (.frameDamaged why) (applyScan (scan s.tags s.rxbuf) s)) (by simp; omega)
        rw [applyScan_emit_applyScan] at hend
        exact ⟨{ r' with events := (scan s.tags s.rxbuf).events ++ [.frameDamaged why] ++ r'.events },
          hsuffix'.trans hsuffix, hend⟩

end Sys2Proof.Machine
end

section
/-! The whole machine: the relation `Effect` says once what each command can do (R83), `exec_effect` ties it to the
model, and the statements about every command and every step follow from it case by case. -/

namespace Sys2Proof.Machine

/-! ### What a command can do -/

/-- `Effect s i u r`: command `i` may leave `s` as `u`, and answer `r`, which `u` does not record yet. -/
inductive Effect (s : State) : Instr → State → Response → Prop where
  | chkCompute (d : Bytes) (v : Word) : Effect s (.chkCompute d) s ⟨.ok, v⟩
  | chkVerify (c : Byte) (d : Bytes) (v : Word) : Effect s (.chkVerify c d) s ⟨.ok, v⟩
  | sendPlain (d : Bytes) (now : Word) (fs : List Bytes) (harq : s.ctrl[1] = false) :
      Effect s (.send d now) { s with tx := s.tx ++ fs } ⟨.ok, 1⟩
  | sendIdle (d : Bytes) (now : Word) (f : Bytes) (harq : s.ctrl[1] = true) (hwait : s.wait = 0) (hf : f ≠ []) :
      Effect s (.send d now) { s with tx := s.tx ++ [f], resend := f, sentTs := now, wait := 1 } ⟨.ok, 1⟩
  | sendAwaiting (d : Bytes) (now : Word) (harq : s.ctrl[1] = true) (hwait : s.wait = 1) :
      Effect s (.send d now) s ⟨.ok, 0⟩
  | pushed (d : Bytes) (hcap : withinCapacity s.rxbufCap (s.rxbuf.length + d.length) = true) :
      Effect s (.rxPush d) (rxAppend d s) ⟨.ok, BitVec.ofNat 32 d.length⟩
  | pushRefused (d : Bytes) : Effect s (.rxPush d) s ⟨.rxOverflow, 0⟩
  | deframedPartial (sc : Scan) (hbuf : sc.rxbuf <:+ s.rxbuf)
      (hpartial : scan s.tags sc.rxbuf = ⟨[], sc.rxbuf, none⟩) : Effect s .deframe (applyScan sc s) ⟨.ok, 1⟩
  | deframedPlain (sc : Scan) (hbuf : sc.rxbuf <:+ s.rxbuf) (p : Bytes) (harq : s.ctrl[1] = false) :
      Effect s .deframe
        { applyScan sc s with deliver := s.deliver ++ [p], event := s.event ++ sc.events ++ [.frameDelivered] } ⟨.ok, 0⟩
  | deframedAck (sc : Scan) (hbuf : sc.rxbuf <:+ s.rxbuf) (harq : s.ctrl[1] = true) (hwait : s.wait = 1) :
      Effect s .deframe
        { applyScan sc s with
          event := s.event ++ sc.events ++ [.ackReceived], wait := 0, sfn := s.sfn ^^^ 1, resend := [] }
        ⟨.ok, 2⟩
  | deframedAckIdle (sc : Scan) (hbuf : sc.rxbuf <:+ s.rxbuf) (harq : s.ctrl[1] = true) (hwait : s.wait = 0) :
      Effect s .deframe { applyScan sc s with event := s.event ++ sc.events ++ [.ackReceived] } ⟨.ok, 2⟩
  | deframedInOrder (sc : Scan) (hbuf : sc.rxbuf <:+ s.rxbuf) (p : Bytes) (harq : s.ctrl[1] = true) :
      Effect s .deframe
        { applyScan sc s with
          tx := s.tx ++ [ackFrame s.tags], deliver := s.deliver ++ [p], erfn := s.erfn ^^^ 1
          event := s.event ++ sc.events ++ [.ackSent, .frameDelivered] }
        ⟨.ok, 0⟩
  | deframedDuplicate (sc : Scan) (hbuf : sc.rxbuf <:+ s.rxbuf) (harq : s.ctrl[1] = true) :
      Effect s .deframe
        { applyScan sc s with tx := s.tx ++ [ackFrame s.tags], event := s.event ++ sc.events ++ [.ackSent] } ⟨.ok, 3⟩
  | retransmitted (now : Word) (harq : s.ctrl[1] = true) (hwait : s.wait = 1) :
      Effect s (.tick now)
        { s with tx := s.tx ++ [s.resend], sentTs := now, event := s.event ++ [.timeoutRetransmit] } ⟨.ok, 1⟩
  | tickIdle (now : Word) : Effect s (.tick now) s ⟨.ok, 0⟩
  | regRead (x : Byte) (v : Word) : Effect s (.regRd x) s ⟨.ok, v⟩
  | regReadRefused (x : Byte) : Effect s (.regRd x) s ⟨.badReg, 0⟩
  | regWritten (x : Byte) (v : Word) (reg : Reg) (hok : writeStatus reg v = .ok) :
      Effect s (.regWr x v) (writeReg reg v s) ⟨.ok, 0⟩
  | regWriteRefused (x : Byte) (v : Word) (st : Status) (hst : st = .badReg ∨ st = .badConfig) :
      Effect s (.regWr x v) s ⟨st, 0⟩
  | softReset : Effect s .softReset (resetLink s) ⟨.ok, 0⟩

/-- The command `i` has an effect of the relation on `s`, and its response is recorded behind it. -/
def HasEffect (i : Instr) (s : State) : Prop :=
  ∃ u r, Effect s i u r ∧ exec i s = .next (respond r.status r.result u)

theorem hasEffect_send (d : Bytes) (now : Word) (s : State) : HasEffect (.send d now) s := by
  cases harq : s.ctrl[1] with
  | false =>
    have hsend : exec (.send d now) s = finish (transmitAll _ s, 1) := if_neg (by simp [arqEnabled, harq])
    rw [transmitAll_eq] at hsend
    exact ⟨_, _, .sendPlain d now _ harq, hsend⟩
  | true =>
    have hsend : exec (.send d now) s = finish (arqSend d now s) := execSend_arq harq d now
    rcases bit_eq_zero_or_one s.wait with hwait | hwait
    · rw [arqSend_idle d now hwait] at hsend
      exact ⟨_, _, .sendIdle d now _ harq hwait (by simp [wireFrame]), hsend⟩
    · rw [arqSend_awaiting d now hwait] at hsend
      exact ⟨_, _, .sendAwaiting d now harq hwait, hsend⟩

theorem hasEffect_rxPush (d : Bytes) (s : State) : HasEffect (.rxPush d) s := by
  rcases execRxPush_cases d s with ⟨hcap, hpush⟩ | ⟨-, hpush⟩
  · exact ⟨_, _, .pushed d hcap, hpush⟩
  · exact ⟨_, _, .pushRefused d, hpush⟩

/-- The end of the loop by the outcome of its last frame. -/
theorem hasEffect_deframe (s : State) : HasEffect .deframe s := by
  obtain ⟨sc, hbuf, ⟨hpartial, hrun⟩ | ⟨acc, u, o, hres, hrun⟩⟩ := deframeLoop_cases (Nat.lt_succ_self s.rxbuf.length)
  · exact ⟨_, _, .deframedPartial sc hbuf hpartial, congrArg finish hrun⟩
  · have last (v : Word) (hv : deframeLoop (s.rxbuf.length + 1) s = (u, v)) : exec .deframe s = finish (u, v) :=
      congrArg finish hv
    rcases resolveFrame_cases acc (applyScan sc s) with
      ⟨why, h⟩ | ⟨harq, p, h⟩ | ⟨harq, hwait, h⟩ | ⟨harq, hwait, h⟩ | ⟨harq, p, h⟩ | ⟨harq, h⟩
    all_goals
      obtain ⟨rfl, rfl⟩ := Prod.mk.inj (hres.symm.trans h)
      simp only [reduceCtorEq, false_and, true_and, false_or, or_false] at hrun
    · exact ⟨_, _, .deframedPlain sc hbuf p harq, last 0 hrun⟩
    · exact ⟨_, _, .deframedAck sc hbuf harq hwait, last 2 hrun⟩
    · exact ⟨_, _, .deframedAckIdle sc hbuf harq hwait, last 2 hrun⟩
    · exact ⟨_, _, .deframedInOrder sc hbuf p harq, last 0 hrun⟩
    · exact ⟨_, _, .deframedDuplicate sc hbuf harq, last 3 hrun⟩

/-- TICK retransmits, or it changes nothing (R177). -/
theorem exec_tick (now : Word) (s : State) : exec (.tick now) s =
    if s.ctrl[1] = true ∧ s.wait = 1 ∧ timedOut now s.sentTs s.timeout = true then
      finish ({ s with tx := s.tx ++ [s.resend], sentTs := now, event := s.event ++ [.timeoutRetransmit] }, 1)
    else finish (s, 0) := by
  simp only [exec, execTick, arqEnabled, Bool.and_eq_true, beq_iff_eq, and_assoc]
  rfl

theorem hasEffect_tick (now : Word) (s : State) : HasEffect (.tick now) s := by
  have htick := exec_tick now s
  split at htick
  next h =>
    obtain ⟨harq, hwait, -⟩ := h
    exact ⟨_, _, .retransmitted now harq hwait, htick⟩
  next => exact ⟨_, _, .tickIdle now, htick⟩

theorem exec_regRd_mapped {x : Byte} {reg : Reg} (hx : regOf x = some reg) (s : State) :
    exec (.regRd x) s = finish (s, readReg reg s) := by
  simp only [exec, execRegRd, hx]

theorem hasEffect_regRd (x : Byte) (s : State) : HasEffect (.regRd x) s := by
  cases hx : regOf x with
  | none => exact ⟨_, _, .regReadRefused x, exec_regRd_unmapped hx s⟩
  | some reg => exact ⟨_, _, .regRead x _, exec_regRd_mapped hx s⟩

theorem writeStatus_cases (reg : Reg) (v : Word) :
    writeStatus reg v = .ok ∨ writeStatus reg v = .badReg ∨ writeStatus reg v = .badConfig := by
  cases reg <;> grind [writeStatus]

theorem hasEffect_regWr (x : Byte) (v : Word) (s : State) : HasEffect (.regWr x v) s := by
  cases hx : regOf x with
  | none => exact ⟨_, _, .regWriteRefused x v _ (.inl rfl), exec_regWr_unmapped hx v s⟩
  | some reg =>
    rcases writeStatus_cases reg v with hok | hbad
    · exact ⟨_, _, .regWritten x v reg hok, exec_regWr_accepted hx hok s⟩
    · have hne : writeStatus reg v ≠ .ok := by rcases hbad with h | h <;> simp [h]
      exact ⟨_, _, .regWriteRefused x v _ hbad, exec_regWr_refused hx hne s⟩

/-- Every command does what the relation says, and nothing else. -/
theorem exec_effect (i : Instr) (s : State) : HasEffect i s :=
  match i with
  | .chkCompute d => ⟨_, _, .chkCompute d _, rfl⟩
  | .chkVerify c d => ⟨_, _, .chkVerify c d _, rfl⟩
  | .send d now => hasEffect_send d now s
  | .rxPush d => hasEffect_rxPush d s
  | .deframe => hasEffect_deframe s
  | .tick now => hasEffect_tick now s
  | .regRd x => hasEffect_regRd x s
  | .regWr x v => hasEffect_regWr x v s
  | .softReset => ⟨_, _, .softReset, rfl⟩

theorem effect_of_exec {i : Instr} {s t : State} (h : exec i s = .next t) :
    ∃ u r, Effect s i u r ∧ t = respond r.status r.result u := by
  obtain ⟨u, r, heff, hexec⟩ := exec_effect i s
  exact ⟨u, r, heff, Host.Outcome.next.inj (h.symm.trans hexec)⟩

/-! ### What a step can do -/

/-- Settles O7: the three answers of the decoder. -/
theorem stepRunsTheDecodedCommand : Obligations.StepRunsTheDecodedCommand := by
  intro s
  refine ⟨fun i rest h => ?_, fun why rest h => ?_, fun h => ?_⟩
  · rw [step, h]
  · rw [step, h]
    rfl
  · rw [step, h]

/-- A step is a command on what is left of the port, the answer to an illegal header, or a wait. -/
theorem step_cases (s : State) :
    (∃ i rest, decode s.cmd = .command i rest ∧ step s = exec i { s with cmd := rest }) ∨
    (∃ why rest, decode s.cmd = .illegal why rest ∧ step s = .next (respond .illegalCmd 0 { s with cmd := rest })) ∨
    (decode s.cmd = .incomplete ∧ step s = .next s) := by
  obtain ⟨command, illegal, incomplete⟩ := stepRunsTheDecodedCommand s
  cases h : decode s.cmd with
  | command i rest => exact .inl ⟨i, rest, rfl, command i rest h⟩
  | illegal why rest => exact .inr (.inl ⟨why, rest, rfl, illegal why rest h⟩)
  | incomplete => exact .inr (.inr ⟨rfl, incomplete h⟩)

/-- Settles O54: each of the three answers is a next state. -/
theorem everyStepAnswersANextState : Obligations.EveryStepAnswersANextState := by
  intro s
  rcases step_cases s with ⟨i, rest, -, h⟩ | ⟨why, rest, -, h⟩ | ⟨-, h⟩
  · obtain ⟨u, r, -, hexec⟩ := exec_effect i { s with cmd := rest }
    exact ⟨_, h.trans hexec⟩
  · exact ⟨_, h⟩
  · exact ⟨_, h⟩

/-- A header that meets a row holds none of the row's must-be-zero bits. -/
theorem getLsbD_eq_pattern_of_match {h : Word} {op : Opcode} (hm : h &&& opcodeMask op = opcodePattern op) {k : Nat}
    (hmask : (opcodeMask op).getLsbD k = true) : h.getLsbD k = (opcodePattern op).getLsbD k := by
  rw [← hm, BitVec.getLsbD_and, hmask, Bool.and_true]

theorem opcodeCode_range (op : Opcode) : 0 < (opcodeCode op).toNat ∧ (opcodeCode op).toNat < 0x0A := by
  cases op <;> decide

/-- Settles O5: such a header meets no row, so the decoder rejects it and the step answers ILLEGAL_CMD. -/
theorem illegalHeaderOnlyReportsIllegalCmd : Obligations.IllegalHeaderOnlyReportsIllegalCmd := by
  intro s h rest hcmd hbad
  have hno (op : Opcode) : decodeHeader h ≠ .ok op := by
    intro hd
    obtain ⟨hcode, hm⟩ := decodeHeader_ok hd
    obtain ⟨hpos, hlt⟩ := opcodeCode_range op
    rw [← hcode] at hpos hlt
    rcases hbad with hzero | hbig | ⟨op', k, hcode', hzero, hmask, hset⟩
    · omega
    · omega
    · obtain rfl := opcodeCode_injective (hcode.symm.trans hcode')
      simp [getLsbD_eq_pattern_of_match hm hmask, hzero] at hset
  obtain ⟨why, hwhy⟩ := exists_decodeHeader_eq_error hno
  obtain ⟨-, illegal, -⟩ := stepRunsTheDecodedCommand s
  exact illegal why rest (hcmd ▸ decode_of_illegal hwhy rest)

/-! ### Responses and the command port -/

theorem effect_cmd {i : Instr} {s u : State} {r : Response} (h : Effect s i u r) : u.cmd = s.cmd := by
  cases h with
  | regWritten x v reg _ => rw [writeReg_eq]
  | _ => rfl

theorem effect_resp {i : Instr} {s u : State} {r : Response} (h : Effect s i u r) : u.resp = s.resp := by
  cases h with
  | regWritten x v reg _ => rw [writeReg_eq]
  | _ => rfl

/-- Which commands fail, with which status, and that a failing one leaves the state as it is (R221, R223). -/
theorem effect_of_status_ne_ok {i : Instr} {s u : State} {r : Response} (h : Effect s i u r) (hr : r.status ≠ .ok) :
    r.result = 0 ∧ u = s ∧
      ((∃ x, i = .regRd x ∧ r.status = .badReg) ∨
       (∃ x v, i = .regWr x v ∧ (r.status = .badReg ∨ r.status = .badConfig)) ∨
       (∃ d, i = .rxPush d ∧ r.status = .rxOverflow)) := by
  cases h with
  | pushRefused d => exact ⟨rfl, rfl, .inr (.inr ⟨d, rfl, rfl⟩)⟩
  | regReadRefused x => exact ⟨rfl, rfl, .inl ⟨x, rfl, rfl⟩⟩
  | regWriteRefused x v st hst => exact ⟨rfl, rfl, .inr (.inl ⟨x, v, rfl, hst⟩)⟩
  | _ => exact absurd rfl hr

/-- Settles O55: the response of the command's effect is the one new entry. -/
theorem everyCommandAnswersOnceAndFailuresHaveNoEffect :
    Obligations.EveryCommandAnswersOnceAndFailuresHaveNoEffect := by
  intro i s
  obtain ⟨u, r, heff, hexec⟩ := exec_effect i s
  refine ⟨_, r, hexec, ?_, ?_, fun hr => ?_⟩
  · rw [respond_resp, effect_resp heff]
  · rw [respond_cmd, effect_cmd heff]
  · obtain ⟨hzero, rfl, hwhich⟩ := effect_of_status_ne_ok heff hr
    exact ⟨hzero, rfl, hwhich⟩

end Sys2Proof.Machine
end

section
/-! What a command does not see: a change of the state that commutes with the operations of a command commutes with
the command. So the bytes left on the command port do not matter to a command (R71), and with ARQ off the ARQ state
does not (R22, R181). -/

namespace Sys2Proof.Machine

/-! ### Changes that a command does not see -/

/-- The change `φ` keeps what the meanings read outside the ARQ Controller and commutes with what they write. -/
structure Unseen (φ : State → State) : Prop where
  ctrl : ∀ s, (φ s).ctrl = s.ctrl
  tags : ∀ s, (φ s).tags = s.tags
  maxframe : ∀ s, (φ s).maxframe = s.maxframe
  crccfg : ∀ s, (φ s).crccfg = s.crccfg
  rxbuf : ∀ s, (φ s).rxbuf = s.rxbuf
  rxbufCap : ∀ s, (φ s).rxbufCap = s.rxbufCap
  respond : ∀ st r s, respond st r (φ s) = φ (respond st r s)
  transmitAll : ∀ fs s, transmitAll fs (φ s) = φ (transmitAll fs s)
  emit : ∀ e s, emit e (φ s) = φ (emit e s)
  applyScan : ∀ r s, applyScan r (φ s) = φ (applyScan r s)
  rxAppend : ∀ d s, rxAppend d (φ s) = φ (rxAppend d s)
  writeReg : ∀ reg v s, writeReg reg v (φ s) = φ (writeReg reg v s)

/-- From `s` and from `φ s` the command `i` leads to states that differ by `φ` again. -/
def Commutes (φ : State → State) (i : Instr) (s : State) : Prop :=
  ∀ t, exec i s = .next t → exec i (φ s) = .next (φ t)

/-- `resolveFrame` and `φ` commute on states with CTRL `c`. -/
def CommutesResolve (φ : State → State) (c : Word) : Prop :=
  ∀ acc s, s.ctrl = c → resolveFrame acc (φ s) = (φ (resolveFrame acc s).1, (resolveFrame acc s).2)

section
variable {φ : State → State} (hφ : Unseen φ)
include hφ

theorem commutes_of_respond {i : Instr} {s u : State} {st : Status} {v : Word}
    (h : exec i s = .next (respond st v u)) (h' : exec i (φ s) = .next (respond st v (φ u))) : Commutes φ i s := by
  intro t ht
  obtain rfl := Host.Outcome.next.inj (h.symm.trans ht)
  rw [h', hφ.respond]

theorem commutes_chkCompute (d : Bytes) (s : State) : Commutes φ (.chkCompute d) s :=
  commutes_of_respond hφ rfl (by rw [exec, execChkCompute, hφ.ctrl, hφ.crccfg]; rfl)

theorem commutes_chkVerify (c : Byte) (d : Bytes) (s : State) : Commutes φ (.chkVerify c d) s :=
  commutes_of_respond hφ rfl (by rw [exec, execChkVerify, hφ.ctrl, hφ.crccfg]; rfl)

theorem commutes_send_plain (d : Bytes) (now : Word) {s : State} (harq : arqEnabled s.ctrl = false) :
    Commutes φ (.send d now) s := by
  have plain (t : State) (ht : t.ctrl = s.ctrl) : exec (.send d now) t =
      finish (transmitAll (plainFrames t.ctrl t.tags t.maxframe t.crccfg d) t, 1) := by
    rw [exec, execSend, ht, harq]
    rfl
  refine commutes_of_respond hφ (plain s rfl) ?_
  rw [plain _ (hφ.ctrl s), hφ.ctrl, hφ.tags, hφ.maxframe, hφ.crccfg, hφ.transmitAll]
  rfl

theorem commutes_rxPush (d : Bytes) (s : State) : Commutes φ (.rxPush d) s := by
  have later := execRxPush_cases d (φ s)
  rw [hφ.rxbuf, hφ.rxbufCap, hφ.rxAppend] at later
  rcases execRxPush_cases d s with ⟨hcap, h⟩ | ⟨hcap, h⟩
  · have h' : execRxPush d (φ s) = finish (φ (rxAppend d s), BitVec.ofNat 32 d.length) := by simpa [hcap] using later
    exact commutes_of_respond hφ h h'
  · have h' : execRxPush d (φ s) = fail .rxOverflow (φ s) := by simpa [hcap] using later
    exact commutes_of_respond hφ h h'

theorem commutes_regWr (x : Byte) (v : Word) (s : State) : Commutes φ (.regWr x v) s := by
  cases hx : regOf x with
  | none => exact commutes_of_respond hφ (exec_regWr_unmapped hx v s) (exec_regWr_unmapped hx v (φ s))
  | some reg =>
    by_cases hok : writeStatus reg v = .ok
    · exact commutes_of_respond hφ (exec_regWr_accepted hx hok s)
        (by rw [exec_regWr_accepted hx hok, hφ.writeReg]; rfl)
    · exact commutes_of_respond hφ (exec_regWr_refused hx hok s) (exec_regWr_refused hx hok (φ s))

/-- The loop of DEFRAME keeps CTRL, so the hypothesis on `resolveFrame` meets every pass. -/
theorem deframeLoop_commutes {c : Word} (hres : CommutesResolve φ c) (fuel : Nat) (s : State) (hc : s.ctrl = c) :
    deframeLoop fuel (φ s) = (φ (deframeLoop fuel s).1, (deframeLoop fuel s).2) := by
  induction fuel generalizing s with
  | zero => rfl
  | succ fuel ih =>
    cases hacc : (scan s.tags s.rxbuf).content with
    | none =>
      rw [deframeLoop_incomplete hacc, deframeLoop_incomplete (by rw [hφ.tags, hφ.rxbuf, hacc]), hφ.tags, hφ.rxbuf,
        hφ.applyScan]
    | some acc =>
      obtain ⟨u, o, hu⟩ : ∃ u o, resolveFrame acc (applyScan (scan s.tags s.rxbuf) s) = (u, o) := ⟨_, _, rfl⟩
      have hscan : scan (φ s).tags (φ s).rxbuf = scan s.tags s.rxbuf := by rw [hφ.tags, hφ.rxbuf]
      have hu' : resolveFrame acc (applyScan (scan s.tags s.rxbuf) (φ s)) = (φ u, o) := by
        rw [hφ.applyScan, hres acc (applyScan _ s) hc, hu]
      obtain ⟨damaged, payload, ack, duplicate⟩ := deframeLoop_pass rfl hacc hu fuel
      obtain ⟨damaged', payload', ack', duplicate'⟩ := deframeLoop_pass hscan hacc hu' fuel
      cases o with
      | payload => rw [payload rfl, payload' rfl]
      | ackConsumed => rw [ack rfl, ack' rfl]
      | duplicate => rw [duplicate rfl, duplicate' rfl]
      | damaged why =>
        obtain rfl := resolveFrame_damaged hu
        rw [damaged why rfl, damaged' why rfl, hφ.emit]
        exact ih _ hc

theorem commutes_deframe {s : State} (hres : CommutesResolve φ s.ctrl) : Commutes φ .deframe s := by
  refine commutes_of_respond hφ rfl ?_
  rw [exec, execDeframe, hφ.rxbuf, deframeLoop_commutes hφ hres _ s rfl]
  rfl

end

/-! ### ARQ off: the ARQ state -/

theorem unseen_withArqOf (a : State) : Unseen (withArqOf a) where
  ctrl _ := rfl
  tags _ := rfl
  maxframe _ := rfl
  crccfg _ := rfl
  rxbuf _ := rfl
  rxbufCap _ := rfl
  respond _ _ _ := rfl
  transmitAll _ _ := by simp only [transmitAll_eq, withArqOf]
  emit _ _ := rfl
  applyScan _ _ := rfl
  rxAppend _ _ := rfl
  writeReg _ _ _ := by simp only [writeReg_eq, withArqOf]

theorem commutesResolve_withArqOf (a : State) {c : Word} (harq : arqEnabled c = false) :
    CommutesResolve (withArqOf a) c := by
  rintro acc s rfl
  have resolve := resolveFrame_plain harq acc
  have resolve' := resolveFrame_plain (s := withArqOf a s) harq acc
  rcases List.eq_nil_or_concat' acc with rfl | ⟨data, b, rfl⟩
  · rw [resolve, resolve', resolvePlain_nil, resolvePlain_nil]
  · rw [resolvePlain_append] at resolve resolve'
    by_cases hb : checkByte s.ctrl s.crccfg data = b
    · rw [resolve.trans (if_pos hb), resolve'.trans (if_pos hb)]
      rfl
    · rw [resolve.trans (if_neg hb), resolve'.trans (if_neg hb)]

theorem exec_tick_plain (now : Word) {s : State} (harq : arqEnabled s.ctrl = false) :
    exec (.tick now) s = finish (s, 0) := by
  rw [exec, execTick, harq]
  rfl

/-- With ARQ off no effect but SOFT_RESET's writes the ARQ state. -/
theorem effect_keeps_arq {i : Instr} {s u : State} {r : Response} (h : Effect s i u r) (harq : s.ctrl[1] = false)
    (hreset : i ≠ .softReset) : withArqOf s u = u := by
  cases h with
  | softReset => exact absurd rfl hreset
  | regWritten x v reg _ => simp only [writeReg_eq, withArqOf]
  | sendIdle _ _ _ hon => simp [harq] at hon
  | deframedAck _ _ hon => simp [harq] at hon
  | deframedInOrder _ _ _ hon => simp [harq] at hon
  | retransmitted _ hon => simp [harq] at hon
  | _ => rfl

/-- Settles O57: the effects keep the ARQ state, and none of the meanings with ARQ off sees it. -/
theorem arqStateIsUnusedWhileArqIsOff : Obligations.ArqStateIsUnusedWhileArqIsOff := by
  intro i a s t harq hread hreset hexec
  refine ⟨?_, ?_⟩
  · obtain ⟨u, r, heff, rfl⟩ := effect_of_exec hexec
    rw [← (unseen_withArqOf s).respond, effect_keeps_arq heff harq hreset]
  · have hφ := unseen_withArqOf a
    have hcommutes : Commutes (withArqOf a) i s := by
      cases i with
      | chkCompute d => exact commutes_chkCompute hφ d s
      | chkVerify c d => exact commutes_chkVerify hφ c d s
      | send d now => exact commutes_send_plain hφ d now harq
      | rxPush d => exact commutes_rxPush hφ d s
      | deframe => exact commutes_deframe hφ (commutesResolve_withArqOf a harq)
      | tick now => exact commutes_of_respond hφ (exec_tick_plain now harq) (exec_tick_plain now harq)
      | regRd x => exact absurd rfl (hread x)
      | regWr x v => exact commutes_regWr hφ x v s
      | softReset => exact absurd rfl hreset
    exact hcommutes t hexec

/-! ### The bytes left on the command port -/

/-- `s` with `c` on the command port. -/
def withCmd (c : Bytes) (s : State) : State := { s with cmd := c }

theorem unseen_withCmd (c : Bytes) : Unseen (withCmd c) where
  ctrl _ := rfl
  tags _ := rfl
  maxframe _ := rfl
  crccfg _ := rfl
  rxbuf _ := rfl
  rxbufCap _ := rfl
  respond _ _ _ := rfl
  transmitAll _ _ := by simp only [transmitAll_eq, withCmd]
  emit _ _ := rfl
  applyScan _ _ := rfl
  rxAppend _ _ := rfl
  writeReg _ _ _ := by simp only [writeReg_eq, withCmd]

/-- Content with ARQ on: an acknowledgment, too short, or a payload with its sequence and check bytes (R151). -/
theorem arqContent_cases (ack : Byte) (acc : Bytes) :
    acc = [ack] ∨ (acc ≠ [ack] ∧ acc.length < 2) ∨ ∃ p seq b, acc = p ++ [seq, b] := by
  by_cases hack : acc = [ack]
  · exact .inl hack
  · by_cases hlen : acc.length < 2
    · exact .inr (.inl ⟨hack, hlen⟩)
    · obtain ⟨q, b, rfl⟩ := (List.eq_nil_or_concat' acc).resolve_left (by rintro rfl; simp at hlen)
      obtain ⟨p, seq, rfl⟩ := (List.eq_nil_or_concat' q).resolve_left (by rintro rfl; simp at hlen)
      exact .inr (.inr ⟨p, seq, b, by simp⟩)

theorem onAckReceived_withCmd (c : Bytes) (s : State) : onAckReceived (withCmd c s) = withCmd c (onAckReceived s) := by
  rcases bit_eq_zero_or_one s.wait with hw | hw
  · rw [onAckReceived_idle hw, onAckReceived_idle (s := withCmd c s) hw]
    rfl
  · rw [onAckReceived_awaiting hw, onAckReceived_awaiting (s := withCmd c s) hw]
    rfl

theorem onDataReceived_withCmd (c p : Bytes) (seq : Byte) (s : State) : onDataReceived p seq (withCmd c s) =
    (withCmd c (onDataReceived p seq s).1, (onDataReceived p seq s).2) := by
  by_cases hseq : seq = seqByte s.erfn
  · rw [onDataReceived_expected p hseq, onDataReceived_expected (s := withCmd c s) p hseq]
    rfl
  · rw [onDataReceived_unexpected p hseq, onDataReceived_unexpected (s := withCmd c s) p hseq]
    rfl

theorem resolveArq_withCmd (c acc : Bytes) (s : State) :
    resolveArq acc (withCmd c s) = (withCmd c (resolveArq acc s).1, (resolveArq acc s).2) := by
  rcases arqContent_cases (tagAck s.tags) acc with rfl | ⟨hack, hlen⟩ | ⟨p, seq, b, rfl⟩
  · rw [resolveArq_ack, ← onAckReceived_withCmd]
    exact resolveArq_ack (withCmd c s)
  · rw [resolveArq_short hack hlen, resolveArq_short (s := withCmd c s) hack hlen]
  · by_cases hb : checkByte s.ctrl s.crccfg (p ++ [seq]) = b
    · rw [(resolveArq_append p seq b s).trans (if_pos hb), ← onDataReceived_withCmd]
      exact (resolveArq_append p seq b (withCmd c s)).trans (if_pos hb)
    · rw [(resolveArq_append p seq b s).trans (if_neg hb)]
      exact (resolveArq_append p seq b (withCmd c s)).trans (if_neg hb)

theorem resolvePlain_withCmd (c acc : Bytes) (s : State) :
    resolvePlain acc (withCmd c s) = (withCmd c (resolvePlain acc s).1, (resolvePlain acc s).2) := by
  rcases List.eq_nil_or_concat' acc with rfl | ⟨data, b, rfl⟩
  · rfl
  · by_cases hb : checkByte s.ctrl s.crccfg data = b
    · rw [(resolvePlain_append data b s).trans (if_pos hb)]
      exact (resolvePlain_append data b (withCmd c s)).trans (if_pos hb)
    · rw [(resolvePlain_append data b s).trans (if_neg hb)]
      exact (resolvePlain_append data b (withCmd c s)).trans (if_neg hb)

theorem commutesResolve_withCmd (c : Bytes) (ctrl : Word) : CommutesResolve (withCmd c) ctrl := by
  rintro acc s -
  cases harq : arqEnabled s.ctrl with
  | true =>
    rw [resolveFrame_arq harq, resolveFrame_arq (s := withCmd c s) harq, resolveArq_withCmd]
  | false =>
    rw [resolveFrame_plain harq, resolveFrame_plain (s := withCmd c s) harq, resolvePlain_withCmd]

theorem commutes_send_withCmd (c d : Bytes) (now : Word) (s : State) : Commutes (withCmd c) (.send d now) s := by
  have hφ := unseen_withCmd c
  cases harq : arqEnabled s.ctrl with
  | false => exact commutes_send_plain hφ d now harq
  | true =>
    have hsend : exec (.send d now) s = finish (arqSend d now s) := execSend_arq harq d now
    have hsend' : exec (.send d now) (withCmd c s) = finish (arqSend d now (withCmd c s)) :=
      execSend_arq (s := withCmd c s) harq d now
    rcases bit_eq_zero_or_one s.wait with hw | hw
    · rw [arqSend_idle d now hw] at hsend
      rw [arqSend_idle (s := withCmd c s) d now hw] at hsend'
      exact commutes_of_respond hφ hsend hsend'
    · rw [arqSend_awaiting d now hw] at hsend
      rw [arqSend_awaiting (s := withCmd c s) d now hw] at hsend'
      exact commutes_of_respond hφ hsend hsend'

theorem commutes_tick_withCmd (c : Bytes) (now : Word) (s : State) : Commutes (withCmd c) (.tick now) s := by
  have hφ := unseen_withCmd c
  have htick := exec_tick now s
  have htick' := exec_tick now (withCmd c s)
  by_cases h : s.ctrl[1] = true ∧ s.wait = 1 ∧ timedOut now s.sentTs s.timeout = true
  · exact commutes_of_respond hφ (htick.trans (if_pos h)) (htick'.trans (if_pos h))
  · exact commutes_of_respond hφ (htick.trans (if_neg h)) (htick'.trans (if_neg h))

theorem readReg_withCmd (reg : Reg) (c : Bytes) (s : State) : readReg reg (withCmd c s) = readReg reg s := by
  cases reg <;> rfl

theorem commutes_regRd_withCmd (c : Bytes) (x : Byte) (s : State) : Commutes (withCmd c) (.regRd x) s := by
  have hφ := unseen_withCmd c
  cases hx : regOf x with
  | none => exact commutes_of_respond hφ (exec_regRd_unmapped hx s) (exec_regRd_unmapped hx _)
  | some reg =>
    exact commutes_of_respond hφ (exec_regRd_mapped hx s) (by rw [exec_regRd_mapped hx, readReg_withCmd]; rfl)

/-- No command reads or writes the command port. -/
theorem commutes_withCmd (c : Bytes) (i : Instr) (s : State) : Commutes (withCmd c) i s :=
  have hφ := unseen_withCmd c
  match i with
  | .chkCompute d => commutes_chkCompute hφ d s
  | .chkVerify b d => commutes_chkVerify hφ b d s
  | .send d now => commutes_send_withCmd c d now s
  | .rxPush d => commutes_rxPush hφ d s
  | .deframe => commutes_deframe hφ (commutesResolve_withCmd c _)
  | .tick now => commutes_tick_withCmd c now s
  | .regRd x => commutes_regRd_withCmd c x s
  | .regWr x v => commutes_regWr hφ x v s
  | .softReset => commutes_of_respond hφ (exec_softReset s) (exec_softReset (withCmd c s))

theorem run_succ_of_step (M : Host.Core) {s t : M.State} (h : M.step s = .next t) (n : Nat) :
    M.run (n + 1) s = M.run n t := by
  rw [Host.Core.run, h]

theorem execAll_cons_of_exec {i : Instr} {s t : State} (h : exec i s = .next t) (is : List Instr) :
    execAll (i :: is) s = execAll is t := by
  rw [execAll, h]

/-- Settles O8: each command is read back from its encoding, and neither reads nor writes the port behind it. -/
theorem commandsTakeEffectInPortOrder : Obligations.CommandsTakeEffectInPortOrder := by
  intro is rest
  induction is with
  | nil =>
    rintro s - rfl
    rfl
  | cons i is ih =>
    intro s hwf hcmd
    rw [List.forall_mem_cons] at hwf
    obtain ⟨hi, his⟩ := hwf
    have hdec : decode s.cmd = .command i (is.flatMap encode ++ rest) := by
      rw [hcmd, List.flatMap_cons, List.append_assoc]
      exact decodeReadsBackEveryEncoding i _ hi
    obtain ⟨run, -⟩ := stepRunsTheDecodedCommand s
    obtain ⟨t, r, hexec, -, hport, -⟩ :=
      everyCommandAnswersOnceAndFailuresHaveNoEffect i (withCmd (is.flatMap encode ++ rest) s)
    have hstep : step s = .next t := (run i _ hdec).trans hexec
    have hdirect : exec i (withCmd rest s) = .next (withCmd rest t) :=
      commutes_withCmd rest i (withCmd (is.flatMap encode ++ rest) s) t hexec
    exact (run_succ_of_step core hstep is.length).trans
      ((ih t his hport).trans (execAll_cons_of_exec hdirect is).symm)

end Sys2Proof.Machine
end

section
/-! Which parts of the state a command changes, from `Effect`: the ports (R37), the ARQ bits (R31 to R33), the
configuration and RXBUF (R30, R201), what a DEFRAME may do (R153 to R155), and the invariant (R43). -/

namespace Sys2Proof.Machine

/-! ### The output ports -/

theorem effect_portsExtend {i : Instr} {s u : State} {r : Response} (h : Effect s i u r) : portsExtend s u := by
  cases h with
  | regWritten x v reg _ => simp [portsExtend, writeReg_eq]
  | _ => simp [portsExtend]

/-- Which commands write which port (R37). -/
theorem effect_ports {i : Instr} {s u : State} {r : Response} (h : Effect s i u r) :
    (u.tx ≠ s.tx → (∃ d now, i = .send d now) ∨ i = .deframe ∨ ∃ now, i = .tick now) ∧
    (u.deliver ≠ s.deliver → i = .deframe) ∧
    (u.event ≠ s.event → i = .deframe ∨ ∃ now, i = .tick now) := by
  cases h with
  | regWritten x v reg _ => simp [writeReg_eq]
  | _ => simp

/-- Settles O56: a command's effect on the ports; an illegal header and a wait have none. -/
theorem outputPortsOnlyGrow : Obligations.OutputPortsOnlyGrow := by
  intro s t hstep
  rcases step_cases s with ⟨i, rest, hdec, h⟩ | ⟨why, rest, hdec, h⟩ | ⟨hdec, h⟩
  · obtain ⟨u, r, heff, rfl⟩ := effect_of_exec (h.symm.trans hstep)
    have grow := effect_portsExtend heff
    refine ⟨grow, fun i' rest' hdec' => ?_⟩
    obtain ⟨rfl, -⟩ := Decoded.command.inj (hdec.symm.trans hdec')
    have writers := effect_ports heff
    exact writers
  · obtain rfl := Host.Outcome.next.inj (h.symm.trans hstep)
    exact ⟨by simp [portsExtend], fun i' rest' hdec' => by simp [hdec] at hdec'⟩
  · obtain rfl := Host.Outcome.next.inj (h.symm.trans hstep)
    exact ⟨by simp [portsExtend], fun i' rest' hdec' => by simp [hdec] at hdec'⟩

/-! ### The ARQ bits -/

theorem effect_arqBits {i : Instr} {s u : State} {r : Response} (h : Effect s i u r) (hreset : i ≠ .softReset) :
    (u.sfn ≠ s.sfn → i = .deframe ∧ s.ctrl[1] = true ∧ s.wait = 1 ∧ u.wait = 0 ∧ u.sfn = s.sfn ^^^ 1 ∧
      r = ⟨.ok, 2⟩) ∧
    (u.erfn ≠ s.erfn → i = .deframe ∧ s.ctrl[1] = true ∧ u.erfn = s.erfn ^^^ 1 ∧ r = ⟨.ok, 0⟩) ∧
    (u.wait ≠ s.wait →
      (∃ d now, i = .send d now ∧ s.ctrl[1] = true ∧ s.wait = 0 ∧ u.wait = 1 ∧ r = ⟨.ok, 1⟩) ∨
      (i = .deframe ∧ s.ctrl[1] = true ∧ s.wait = 1 ∧ u.wait = 0 ∧ u.sfn = s.sfn ^^^ 1 ∧ r = ⟨.ok, 2⟩)) := by
  cases h with
  | softReset => exact absurd rfl hreset
  | regWritten x v reg _ => simp [writeReg_eq]
  | sendIdle d now f harq hwait _ => simp [harq, hwait]
  | deframedAck sc _ harq hwait => simp [harq, hwait]
  | deframedInOrder sc _ p harq => simp [harq]
  | _ => simp

/-- Settles O58: the effects that change an ARQ bit are an accepted SEND, an acknowledgment and an in-order frame. -/
theorem arqBitsChangeOnlyByTheirRules : Obligations.ArqBitsChangeOnlyByTheirRules := by
  intro i s t hreset hexec
  obtain ⟨u, ⟨st, v⟩, heff, rfl⟩ := effect_of_exec hexec
  simpa [effect_resp heff] using effect_arqBits heff hreset

/-! ### Configuration, receive buffer and capacity -/

theorem effect_config {i : Instr} {s u : State} {r : Response} (h : Effect s i u r) (hwr : ∀ x v, i ≠ .regWr x v) :
    u.ctrl = s.ctrl ∧ u.tags = s.tags ∧ u.maxframe = s.maxframe ∧ u.crccfg = s.crccfg ∧ u.timeout = s.timeout := by
  cases h with
  | regWritten x v reg _ => exact absurd rfl (hwr x v)
  | _ => exact ⟨rfl, rfl, rfl, rfl, rfl⟩

theorem effect_rxbuf {i : Instr} {s u : State} {r : Response} (h : Effect s i u r) (hpush : ∀ d, i ≠ .rxPush d)
    (hdeframe : i ≠ .deframe) (hreset : i ≠ .softReset) : u.rxbuf = s.rxbuf := by
  cases h with
  | pushed d _ => exact absurd rfl (hpush d)
  | deframedPartial | deframedPlain | deframedAck | deframedAckIdle | deframedInOrder | deframedDuplicate =>
    exact absurd rfl hdeframe
  | softReset => exact absurd rfl hreset
  | regWritten x v reg _ => rw [writeReg_eq]
  | _ => rfl

theorem effect_rxbufCap {i : Instr} {s u : State} {r : Response} (h : Effect s i u r) : u.rxbufCap = s.rxbufCap := by
  cases h with
  | regWritten x v reg _ => rw [writeReg_eq]
  | _ => rfl

/-- A REG_WR writes one register or none. -/
theorem effect_regWr {x : Byte} {v : Word} {s u : State} {r : Response} (h : Effect s (.regWr x v) u r) :
    ∃ reg, u = writeReg reg v s := by
  cases h with
  | regWritten _ _ reg _ => exact ⟨reg, rfl⟩
  | regWriteRefused => exact ⟨.rxlen, rfl⟩

/-- Settles O59: REG_WR is `writeReg`, and every other effect names the fields it changes. -/
theorem configurationAndBufferChangeOnlyByTheirCommands :
    Obligations.ConfigurationAndBufferChangeOnlyByTheirCommands := by
  intro i s t hexec
  obtain ⟨u, r, heff, rfl⟩ := effect_of_exec hexec
  have config := effect_config heff
  have rxbuf := effect_rxbuf heff
  have capacity := effect_rxbufCap heff
  refine ⟨config, rxbuf, capacity, ?_⟩
  rintro x v rfl
  obtain ⟨reg, rfl⟩ := effect_regWr heff
  cases reg <;> simp [writeReg_eq, readReg]

/-! ### DEFRAME -/

/-- Settles O31: the six ends of a DEFRAME. -/
theorem deframeCompletesWithinItsFrame : Obligations.DeframeCompletesWithinItsFrame := by
  intro s
  obtain ⟨u, r, heff, hexec⟩ := exec_effect .deframe s
  refine ⟨_, r.result, hexec, ?_⟩
  cases heff with
  | deframedPartial sc hbuf _ => simp [hbuf]
  | deframedPlain sc hbuf p _ => simp [hbuf]
  | deframedAck sc hbuf harq _ => simp [hbuf, harq]
  | deframedAckIdle sc hbuf harq _ => simp [hbuf, harq]
  | deframedInOrder sc hbuf p harq => simp [hbuf, harq, ackFrame]
  | deframedDuplicate sc hbuf harq => simp [hbuf, harq, ackFrame]

/-- Only a buffer that its scan leaves as it is makes DEFRAME answer INCOMPLETE. -/
theorem effect_deframe_incomplete {s u : State} (h : Effect s .deframe u ⟨.ok, 1⟩) :
    u.tags = s.tags ∧ scan s.tags u.rxbuf = ⟨[], u.rxbuf, none⟩ := by
  generalize hr : (⟨.ok, 1⟩ : Response) = r at h
  cases h with
  | deframedPartial sc _ hpartial => exact ⟨rfl, hpartial⟩
  | _ => simp at hr

/-- Settles O32: the buffer left by INCOMPLETE is scanned the same way again. -/
theorem incompleteLeavesAPartialFrameAndIsStable : Obligations.IncompleteLeavesAPartialFrameAndIsStable := by
  intro s t hexec hresp
  obtain ⟨u, ⟨st, v⟩, heff, rfl⟩ := effect_of_exec hexec
  obtain ⟨rfl, rfl⟩ : st = .ok ∧ v = 1 := by simpa [effect_resp heff] using hresp
  obtain ⟨tags, hpartial⟩ := effect_deframe_incomplete heff
  refine ⟨?_, execDeframe_partial ?_⟩
  · exact (eq_nil_or_start_of_scan hpartial).imp_right fun ⟨tail, htail⟩ => ⟨tail, htail, hpartial⟩
  · rw [respond_tags, respond_rxbuf, tags, hpartial]

/-! ### The invariant -/

theorem invariant_iff (s : State) : invariant s = true ↔
    configLegal s = true ∧ arqConsistent s = true ∧ rxWithinCapacity s = true ∧ s.resp.all responseSound = true := by
  simp [invariant, and_assoc]

/-- A value that passes its check leaves the configuration legal (R202 to R205). -/
theorem configLegal_writeReg {s : State} {reg : Reg} {v : Word} (h : configLegal s = true)
    (hok : writeStatus reg v = .ok) : configLegal (writeReg reg v s) = true := by
  simp only [configLegal, Bool.and_eq_true] at h ⊢
  obtain ⟨⟨⟨ctrl, tags⟩, maxframe⟩, crccfg⟩ := h
  cases reg <;> simp_all [writeStatus, writeReg]

theorem effect_configLegal {i : Instr} {s u : State} {r : Response} (h : Effect s i u r)
    (hs : configLegal s = true) : configLegal u = true := by
  cases h with
  | regWritten x v reg hok => exact configLegal_writeReg hs hok
  | _ => exact hs

theorem arqConsistent_iff (s : State) : arqConsistent s = true ↔ (s.wait = 1 ↔ s.resend ≠ []) := by
  rcases bit_eq_zero_or_one s.wait with hw | hw <;> cases hr : s.resend <;> simp [arqConsistent, hw, hr]

theorem effect_arqConsistent {i : Instr} {s u : State} {r : Response} (h : Effect s i u r)
    (hs : arqConsistent s = true) : arqConsistent u = true := by
  cases h with
  | sendIdle d now f _ _ hf => simp [arqConsistent_iff, hf]
  | deframedAck => simp [arqConsistent_iff]
  | softReset => simp [arqConsistent_iff]
  | regWritten x v reg _ => rw [writeReg_eq]; exact hs
  | _ => exact hs

theorem rxWithinCapacity_iff (s : State) : rxWithinCapacity s = true ↔
    capacityLegal s.rxbufCap = true ∧ withinCapacity s.rxbufCap s.rxbuf.length = true := by
  simp [rxWithinCapacity]

/-- A command only removes bytes at the front of RXBUF, or appends bytes that fit (R140, R153). -/
theorem effect_rxbuf_cases {i : Instr} {s u : State} {r : Response} (h : Effect s i u r) :
    u.rxbuf <:+ s.rxbuf ∨ withinCapacity s.rxbufCap u.rxbuf.length = true := by
  cases h with
  | pushed d hcap => exact .inr (by simpa using hcap)
  | deframedPartial sc hbuf => exact .inl hbuf
  | deframedPlain sc hbuf => exact .inl hbuf
  | deframedAck sc hbuf => exact .inl hbuf
  | deframedAckIdle sc hbuf => exact .inl hbuf
  | deframedInOrder sc hbuf => exact .inl hbuf
  | deframedDuplicate sc hbuf => exact .inl hbuf
  | softReset => exact .inl List.nil_suffix
  | regWritten x v reg _ => rw [writeReg_eq]; exact .inl List.suffix_rfl
  | _ => exact .inl List.suffix_rfl

theorem effect_rxWithinCapacity {i : Instr} {s u : State} {r : Response} (h : Effect s i u r)
    (hs : rxWithinCapacity s = true) : rxWithinCapacity u = true := by
  rw [rxWithinCapacity_iff] at hs ⊢
  obtain ⟨legal, within⟩ := hs
  rw [effect_rxbufCap h]
  rcases effect_rxbuf_cases h with hsuffix | hfits
  · exact ⟨legal, withinCapacity_mono within hsuffix.length_le⟩
  · exact ⟨legal, hfits⟩

theorem effect_responseSound {i : Instr} {s u : State} {r : Response} (h : Effect s i u r) :
    responseSound r = true := by
  by_cases hr : r.status = .ok
  · simp [responseSound, hr]
  · obtain ⟨hzero, -⟩ := effect_of_status_ne_ok h hr
    simp [responseSound, hzero]

theorem respond_invariant {s : State} {st : Status} {v : Word} (hs : invariant s = true)
    (hr : responseSound ⟨st, v⟩ = true) : invariant (respond st v s) = true := by
  rw [invariant_iff] at hs ⊢
  obtain ⟨config, arq, capacity, responses⟩ := hs
  exact ⟨config, arq, capacity, by rw [respond_resp, List.all_append, responses]; simp [hr]⟩

theorem effect_invariant {i : Instr} {s u : State} {r : Response} (h : Effect s i u r) (hs : invariant s = true) :
    invariant u = true := by
  rw [invariant_iff] at hs ⊢
  obtain ⟨config, arq, capacity, responses⟩ := hs
  exact ⟨effect_configLegal h config, effect_arqConsistent h arq, effect_rxWithinCapacity h capacity,
    by rw [effect_resp h, responses]⟩

/-- Settles O53: each part of the invariant is kept by every effect, and no part reads the command port. -/
theorem everyStepKeepsTheInvariant : Obligations.EveryStepKeepsTheInvariant := by
  intro s t hs hstep
  rcases step_cases s with ⟨i, rest, -, h⟩ | ⟨why, rest, -, h⟩ | ⟨-, h⟩
  · obtain ⟨u, r, heff, rfl⟩ := effect_of_exec (h.symm.trans hstep)
    exact respond_invariant (effect_invariant heff hs) (effect_responseSound heff)
  · obtain rfl := Host.Outcome.next.inj (h.symm.trans hstep)
    exact respond_invariant (s := { s with cmd := rest }) hs rfl
  · obtain rfl := Host.Outcome.next.inj (h.symm.trans hstep)
    exact hs

/-- Settles O52: the reset values are legal, and the open capacity is one that R7 allows. -/
theorem invariantHoldsAtReset : Obligations.InvariantHoldsAtReset := by
  refine (invariant_iff State.reset).2 ⟨by decide, by decide, ?_, rfl⟩
  exact (rxWithinCapacity_iff State.reset).2 ⟨resetCapacity_legal, withinCapacity_zero _⟩

end Sys2Proof.Machine
end

section
/-! The laws of the check functions (R110 to R112), from the register's steps and from the remainder of R103, and the
commands CHK_COMPUTE and CHK_VERIFY (R104 to R108). -/

namespace Sys2Proof.Machine

open Polynomial

/-! ### Bit streams -/

/-- The eight bits of a byte, bit 7 first (R64). -/
def bitsOfByte (b : Byte) : List Bool :=
  [b.getLsbD 7, b.getLsbD 6, b.getLsbD 5, b.getLsbD 4, b.getLsbD 3, b.getLsbD 2, b.getLsbD 1, b.getLsbD 0]

theorem bitstream_cons (b : Byte) (bs : Bytes) : bitstream (b :: bs) = bitsOfByte b ++ bitstream bs := rfl

theorem bitstream_append (a b : Bytes) : bitstream (a ++ b) = bitstream a ++ bitstream b := List.flatMap_append

theorem bitstream_singleton (b : Byte) : bitstream [b] = bitsOfByte b := List.append_nil _

theorem bitsOfByte_length (b : Byte) : (bitsOfByte b).length = 8 := rfl

theorem bitsOfByte_injective {a b : Byte} (h : bitsOfByte a = bitsOfByte b) : a = b := by
  simp only [bitsOfByte, List.cons.injEq, and_true] at h
  obtain ⟨h7, h6, h5, h4, h3, h2, h1, h0⟩ := h
  refine BitVec.eq_of_getLsbD_eq fun i hi => ?_
  interval_cases i <;> assumption

theorem bitstream_injective {a b : Bytes} (hlen : a.length = b.length) (h : bitstream a = bitstream b) : a = b := by
  induction a generalizing b with
  | nil => exact (List.eq_nil_of_length_eq_zero hlen.symm).symm
  | cons x a ih =>
    obtain ⟨y, b, rfl⟩ := List.exists_cons_of_length_eq_add_one hlen.symm
    obtain ⟨hx, htail⟩ := List.append_inj h rfl
    rw [bitsOfByte_injective hx, ih (by simpa using hlen) htail]

theorem bitstream_zipWith_xor (a b : Bytes) (hlen : a.length = b.length) :
    bitstream (List.zipWith (fun x y => x ^^^ y) a b) = List.zipWith Bool.xor (bitstream a) (bitstream b) := by
  induction a generalizing b with
  | nil => rfl
  | cons x a ih =>
    obtain ⟨y, b, rfl⟩ := List.exists_cons_of_length_eq_add_one hlen.symm
    rw [List.zipWith_cons_cons, bitstream_cons, bitstream_cons, bitstream_cons, 
      List.zipWith_append ((bitsOfByte_length x).trans (bitsOfByte_length y).symm), ih b (by simpa using hlen)]
    simp [bitsOfByte]

theorem bitstream_length_congr {a b : Bytes} (hlen : a.length = b.length) :
    (bitstream a).length = (bitstream b).length := by
  simp [bitstream, hlen]

/-! ### The register, step by step -/

/-- The shift register is linear over GF(2) (R110). -/
theorem crcStep_xor {w : Nat} (g r r' : BitVec w) (b b' : Bool) :
    crcStep g (r ^^^ r') (b ^^ b') = crcStep g r b ^^^ crcStep g r' b' := by
  have shiftIn : ((r ^^^ r') <<< 1) ||| (BitVec.ofBool (b ^^ b')).setWidth w =
      ((r <<< 1) ||| (BitVec.ofBool b).setWidth w) ^^^ ((r' <<< 1) ||| (BitVec.ofBool b').setWidth w) := by
    ext i hi
    cases i <;> simp
  simp only [crcStep, shiftIn, BitVec.msb_xor]
  generalize (r <<< 1) ||| (BitVec.ofBool b).setWidth w = x
  generalize (r' <<< 1) ||| (BitVec.ofBool b').setWidth w = y
  have twice : (x ^^^ g) ^^^ (y ^^^ g) = x ^^^ y :=
    calc (x ^^^ g) ^^^ (y ^^^ g)
      _ = (x ^^^ y) ^^^ (g ^^^ g) := by ac_rfl
      _ = x ^^^ y := by rw [BitVec.xor_self, BitVec.xor_zero]
  cases x.msb <;> cases y.msb
  · rfl
  · exact BitVec.xor_assoc x y g
  · change (x ^^^ y) ^^^ g = (x ^^^ g) ^^^ y
    ac_rfl
  · exact twice.symm

theorem foldl_crcStep_xor {w : Nat} (g : BitVec w) (m m' : List Bool) (hlen : m.length = m'.length)
    (r r' : BitVec w) :
    (List.zipWith Bool.xor m m').foldl (crcStep g) (r ^^^ r') = m.foldl (crcStep g) r ^^^ m'.foldl (crcStep g) r' := by
  induction m generalizing m' r r' with
  | nil => simp [List.eq_nil_of_length_eq_zero hlen.symm]
  | cons b m ih =>
    obtain ⟨b', m', rfl⟩ := List.exists_cons_of_length_eq_add_one hlen.symm
    rw [List.zipWith_cons_cons, List.foldl_cons, List.foldl_cons, List.foldl_cons, crcStep_xor,
      ih m' (by simpa using hlen)]

theorem crc_zipWith_xor {w : Nat} (g : BitVec w) {a b : Bytes} (hlen : a.length = b.length) :
    crc w g (List.zipWith (fun x y => x ^^^ y) a b) = crc w g a ^^^ crc w g b := by
  have zeros : List.replicate (w - 1) false =
      List.zipWith Bool.xor (List.replicate (w - 1) false) (List.replicate (w - 1) false) := by simp
  rw [crc, bitstream_zipWith_xor a b hlen, zeros, ← List.zipWith_append (bitstream_length_congr hlen)]
  have linear := foldl_crcStep_xor g (bitstream a ++ List.replicate (w - 1) false)
    (bitstream b ++ List.replicate (w - 1) false) (by simp [bitstream_length_congr hlen]) 0 0
  rw [BitVec.xor_self] at linear
  rw [show (0#w) = 0 from rfl] at linear
  rw [linear, BitVec.setWidth_xor, crc, crc]

/-- Zero bits do not move a register that holds 0. -/
theorem foldl_crcStep_zeros {w : Nat} (g : BitVec w) (n : Nat) :
    (List.replicate n false).foldl (crcStep g) 0 = 0 := by
  induction n with
  | zero => rfl
  | succ n ih =>
    have stay : crcStep g 0 false = 0 := by simp [crcStep]
    rw [List.replicate_succ, List.foldl_cons, stay, ih]

theorem crc_zero_cons {w : Nat} (g : BitVec w) (bs : Bytes) : crc w g (0x00 :: bs) = crc w g bs := by
  have zero_bits : bitsOfByte 0x00 = List.replicate 8 false := by decide
  rw [crc, bitstream_cons, zero_bits, List.append_assoc, List.foldl_append, foldl_crcStep_zeros, crc]

theorem crc_zeros {w : Nat} (g : BitVec w) (n : Nat) : crc w g (List.replicate n 0x00) = 0 := by
  induction n with
  | zero => rw [List.replicate_zero, crc, show bitstream [] = [] from rfl, List.nil_append, foldl_crcStep_zeros]; simp
  | succ n ih => rw [List.replicate_succ, crc_zero_cons, ih]

/-! ### W = 2 is parity -/

/-- With the generator 11 the low bit of the register is the XOR of the bits. -/
theorem crcStep_parity (p : BitVec 1) (b : Bool) :
    crcStep (0b11 : BitVec 2) (p.setWidth 2) b = (p ^^^ BitVec.ofBool b).setWidth 2 := by
  revert p b
  decide

theorem foldl_crcStep_parity (m : List Bool) (p : BitVec 1) :
    m.foldl (crcStep (0b11 : BitVec 2)) (p.setWidth 2) = (m.foldl (fun p b => p ^^^ BitVec.ofBool b) p).setWidth 2 := by
  induction m generalizing p with
  | nil => rfl
  | cons b m ih => rw [List.foldl_cons, crcStep_parity, ih, List.foldl_cons]

/-- The XOR of bits is their number of ones modulo 2. -/
theorem foldl_xor_eq_count (m : List Bool) (p : BitVec 1) :
    m.foldl (fun p b => p ^^^ BitVec.ofBool b) p = p ^^^ BitVec.ofNat 1 (m.count true % 2) := by
  induction m generalizing p with
  | nil => simp
  | cons b m ih =>
    rw [List.foldl_cons, ih, BitVec.xor_assoc]
    cases b with
    | false => simp
    | true => rcases Nat.mod_two_eq_zero_or_one (m.count true) with h | h <;> simp [Nat.add_mod, h]

theorem popcount_eq_count (b : Byte) : popcount b = (bitsOfByte b).count true := by
  have bits : bitsOfByte b = ((List.range 8).map b.getLsbD).reverse := rfl
  rw [bits, List.count_reverse, List.count_eq_countP, List.countP_map, popcount]
  simp [Function.comp_def]

theorem parity_eq_foldl_bitstream (bs : Bytes) :
    parity bs = (bitstream bs).foldl (fun p b => p ^^^ BitVec.ofBool b) 0 := by
  rw [bitstream, List.foldl_flatMap, parity]
  simp only [popcount_eq_count, ← foldl_xor_eq_count]
  rfl

theorem crc_two_eq_parity (bs : Bytes) : crc 2 0b11 bs = parity bs := by
  have start : (0 : BitVec 2) = (0 : BitVec 1).setWidth 2 := rfl
  rw [crc, start, foldl_crcStep_parity, List.foldl_append, ← parity_eq_foldl_bitstream]
  simp

/-! ### The remainder -/

/-- R103 down to a generator of one bit. -/
theorem polyOfVector_crc {w : Nat} {g : BitVec w} (hw : 0 < w) (hg : g.msb = true) (bs : Bytes) :
    polyOfVector (crc w g bs) = (polyOfBits (bitstream bs) * X ^ (w - 1)) %ₘ polyOfVector g := by
  obtain ⟨clear, rem⟩ := foldl_crcStep hw hg (bitstream bs ++ List.replicate (w - 1) false)
  rw [crc, polyOfVector_setWidth_pred clear, rem, polyOfBits_append_zeros]

theorem polyOfVector_injective {w : Nat} {a b : BitVec w} (h : polyOfVector a = polyOfVector b) : a = b := by
  have bit : Function.Injective coeffOfBit := by decide
  refine BitVec.eq_of_getLsbD_eq fun i _ => bit ?_
  rw [← polyOfVector_coeff, ← polyOfVector_coeff, h]

/-- A factor x of the divisor passes through the remainder. -/
theorem mul_X_modByMonic {q : (ZMod 2)[X]} (hq : q.Monic) (p : (ZMod 2)[X]) : (p * X) %ₘ (q * X) = (p %ₘ q) * X := by
  have small : ((p %ₘ q) * X).degree < (q * X).degree := by
    rw [degree_mul, degree_mul, degree_X]
    exact WithBot.add_lt_add_right (by decide) (degree_modByMonic_lt p hq)
  refine (div_modByMonic_unique (p /ₘ q) _ (hq.mul monic_X) ⟨?_, small⟩).2
  linear_combination X * modByMonic_add_div p q

/-- A generator whose constant term is 0 is x times the generator without it. -/
theorem polyOfVector_shiftRight {w : Nat} {g : BitVec w} (hg : g.getLsbD 0 = false) :
    polyOfVector g = polyOfVector ((g >>> 1).setWidth (w - 1)) * X := by
  ext i
  cases i with
  | zero => rw [polyOfVector_coeff, hg, mul_coeff_zero, coeff_X_zero, mul_zero, coeffOfBit_false]
  | succ i =>
    rw [coeff_mul_X, polyOfVector_coeff, polyOfVector_coeff, BitVec.getLsbD_setWidth, BitVec.getLsbD_ushiftRight]
    by_cases hi : i < w - 1
    · simp [hi, Nat.add_comm]
    · simp [hi, BitVec.getLsbD_of_ge g (i + 1) (by omega)]

/-- Shifting up by one multiplies by x, when no bit is lost at the top. -/
theorem polyOfVector_shiftLeft {v w : Nat} (hv : v < w) (a : BitVec v) :
    polyOfVector (a.setWidth w <<< 1) = polyOfVector a * X := by
  ext i
  cases i with
  | zero => simp [polyOfVector_coeff]
  | succ i =>
    rw [coeff_mul_X, polyOfVector_coeff, polyOfVector_coeff]
    by_cases hi : i < v
    · simp [show i + 1 < w by omega]
    · simp [BitVec.getLsbD_of_ge a i (by omega)]

/-- The law of R110 for a generator divisible by x. -/
theorem crc_of_even {w : Nat} {g : BitVec w} (hw : 2 ≤ w) (hg : g.msb = true) (heven : g.getLsbD 0 = false)
    (bs : Bytes) :
    crc w g bs = (crc (w - 1) ((g >>> 1).setWidth (w - 1)) bs).setWidth (w - 1) <<< 1 := by
  have hg' : ((g >>> 1).setWidth (w - 1)).msb = true := by
    rw [BitVec.msb_eq_getLsbD_last] at hg ⊢
    rw [BitVec.getLsbD_setWidth, BitVec.getLsbD_ushiftRight, show 1 + (w - 1 - 1) = w - 1 by omega, hg,
      Bool.and_true, decide_eq_true_eq]
    omega
  have power : (X : (ZMod 2)[X]) ^ (w - 1) = X ^ (w - 1 - 1) * X := by rw [← pow_succ]; congr; omega
  obtain ⟨monic, -⟩ := polyOfVector_monic_degree hg'
  apply polyOfVector_injective
  rw [polyOfVector_shiftLeft (by omega), polyOfVector_crc (by omega) hg, polyOfVector_crc (by omega) hg',
    polyOfVector_shiftRight heven, power, ← mul_assoc, mul_X_modByMonic monic]

theorem polyOfVector_twoPow {w n : Nat} (hn : n < w) : polyOfVector (BitVec.twoPow w n) = X ^ n := by
  ext i
  rw [polyOfVector_coeff, coeff_X_pow, BitVec.getLsbD_twoPow]
  by_cases hi : i = n
  · simp [hi, hn]
  · simp [hi, hn, Ne.symm hi]

theorem crc_twoPow {w : Nat} (hw : 2 ≤ w) (bs : Bytes) : crc w (BitVec.twoPow w (w - 1)) bs = 0 := by
  have hg : (BitVec.twoPow w (w - 1)).msb = true := by simp [BitVec.msb_eq_getLsbD_last]; omega
  apply polyOfVector_injective
  rw [polyOfVector_crc (by omega) hg, polyOfVector_twoPow (by omega),
    (modByMonic_eq_zero_iff_dvd (monic_X_pow _)).2 (dvd_mul_left _ _)]
  exact polyOfVector_zero.symm

/-- Settles O11: the laws of R110, those of parity as the CRC of W = 2. -/
theorem checkFunctionsObeyTheirArithmeticLaws : Obligations.CheckFunctionsObeyTheirArithmeticLaws := by
  refine ⟨fun a b hlen => ?_, crc_two_eq_parity, fun w g hw hg => ⟨fun a b hlen => crc_zipWith_xor g hlen,
    crc_zero_cons g, crc_zeros g, fun heven => crc_of_even hw hg heven, ?_⟩⟩
  · rw [← crc_two_eq_parity, crc_zipWith_xor _ hlen, crc_two_eq_parity, crc_two_eq_parity]
  · rintro rfl bs
    exact crc_twoPow hw bs

/-! ### Residue and bursts -/

theorem polyOfBits_append (m n : List Bool) : polyOfBits (m ++ n) = polyOfBits m * X ^ n.length + polyOfBits n := by
  induction n using List.reverseRecOn with
  | nil => simp
  | append_singleton n b ih =>
    rw [← List.append_assoc, polyOfBits_concat, ih, polyOfBits_concat, List.length_append, List.length_singleton,
      pow_succ]
    ring

/-- The coefficients of a bit stream, its last bit first. -/
theorem polyOfBits_coeff (m : List Bool) (i : Nat) : (polyOfBits m).coeff i = coeffOfBit (m.reverse.getD i false) := by
  induction m using List.reverseRecOn generalizing i with
  | nil => simp
  | append_singleton m b ih =>
    rw [polyOfBits_concat, coeff_add, List.reverse_concat]
    cases i with
    | zero => simp
    | succ i => simp [coeff_C_succ, ih]

theorem polyOfBits_degree_lt (m : List Bool) : (polyOfBits m).degree < m.length := by
  rw [degree_lt_iff_coeff_zero]
  intro i hi
  rw [polyOfBits_coeff, List.getD_eq_default _ _ (by simpa using hi), coeffOfBit_false]

theorem polyOfBits_injective {m n : List Bool} (hlen : m.length = n.length) (h : polyOfBits m = polyOfBits n) :
    m = n := by
  have bit : Function.Injective coeffOfBit := by decide
  refine List.reverse_inj.1 (List.ext_getElem (by simp [hlen]) fun i hm hn => bit ?_)
  rw [← List.getD_eq_getElem _ false, ← List.getD_eq_getElem _ false, ← polyOfBits_coeff, ← polyOfBits_coeff, h]

theorem polyOfBits_bitsOfByte (b : Byte) : polyOfBits (bitsOfByte b) = polyOfVector b := by
  ext i
  rw [polyOfBits_coeff, polyOfVector_coeff]
  by_cases hi : i < 8
  · interval_cases i <;> rfl
  · rw [List.getD_eq_default _ _ (by simp [bitsOfByte_length]; omega), BitVec.getLsbD_of_ge b i (by omega)]

/-- Over GF(2) adding the remainder is subtracting it. -/
theorem dvd_add_modByMonic (p q : (ZMod 2)[X]) : q ∣ p + p %ₘ q := by
  refine ⟨p /ₘ q, ?_⟩
  linear_combination CharTwo.add_self_eq_zero (p %ₘ q) - modByMonic_add_div p q

/-- The remainder appended to a message completes it to a multiple of the generator (R111). -/
theorem crc_nine_residue {g : BitVec 9} (hg : g.msb = true) (bs : Bytes) :
    crc 9 g (bs ++ [(crc 9 g bs).setWidth 8]) = 0 := by
  obtain ⟨monic, -⟩ := polyOfVector_monic_degree hg
  have check : (crc 9 g bs).setWidth 8 = crc 9 g bs := BitVec.setWidth_eq _
  have multiple : polyOfVector g ∣ polyOfBits (bitstream (bs ++ [(crc 9 g bs).setWidth 8])) := by
    rw [bitstream_append, bitstream_singleton, polyOfBits_append, bitsOfByte_length, polyOfBits_bitsOfByte, check,
      polyOfVector_crc (by decide) hg]
    exact dvd_add_modByMonic _ _
  apply polyOfVector_injective
  rw [polyOfVector_crc (by decide) hg, (modByMonic_eq_zero_iff_dvd monic).2 (multiple.mul_right _)]
  exact polyOfVector_zero.symm

/-- Settles O13: the residue for W = 9, and the counterexample of R111 below it. -/
theorem residueIsZeroForWidthNine : Obligations.ResidueIsZeroForWidthNine :=
  ⟨fun _ bs hg => crc_nine_residue hg bs, by decide +kernel⟩

/-- A generator with constant term 1 has no factor x. -/
theorem isCoprime_X_pow {w : Nat} {g : BitVec w} (hg : g.getLsbD 0 = true) (n : Nat) :
    IsCoprime (polyOfVector g) (X ^ n) := by
  refine IsCoprime.pow_right ?_
  refine ⟨1, -(polyOfVector g).divX, ?_⟩
  have split := divX_mul_X_add (polyOfVector g)
  rw [polyOfVector_coeff, hg, coeffOfBit_true, map_one] at split
  linear_combination -split

/-- Two streams that differ only within a window have the same bits on each side of it. -/
theorem exists_window {m n : List Bool} {k l : Nat} (hlen : m.length = n.length)
    (hsame : ∀ j, j < k ∨ k + l ≤ j → m[j]? = n[j]?) :
    ∃ pre post x y : List Bool, m = pre ++ x ++ post ∧ n = pre ++ y ++ post ∧ x.length = y.length ∧ x.length ≤ l := by
  have pre : m.take k = n.take k := by
    refine List.ext_getElem? fun j => ?_
    by_cases hj : j < k
    · rw [List.getElem?_take_of_lt hj, List.getElem?_take_of_lt hj, hsame j (.inl hj)]
    · rw [List.getElem?_take_eq_none (by omega), List.getElem?_take_eq_none (by omega)]
  have post : m.drop (k + l) = n.drop (k + l) := by
    refine List.ext_getElem? fun j => ?_
    rw [List.getElem?_drop, List.getElem?_drop, hsame _ (.inr (by omega))]
  have window (z : List Bool) : z = z.take k ++ (z.drop k).take l ++ z.drop (k + l) := by
    rw [List.append_assoc, ← List.drop_drop, List.take_append_drop, List.take_append_drop]
  exact ⟨m.take k, m.drop (k + l), (m.drop k).take l, (n.drop k).take l, window m, by rw [pre, post]; exact window n,
    by simp [hlen], by simp⟩

/-- Two streams that differ only within W-1 positions, and do differ, have different remainders. -/
theorem remainder_ne_of_burst {w : Nat} {g : BitVec w} (hg : g.msb = true) (hone : g.getLsbD 0 = true)
    {pre post x y : List Bool} (hlen : x.length = y.length) (hshort : x.length ≤ w - 1)
    (h : (polyOfBits (pre ++ x ++ post) * X ^ (w - 1)) %ₘ polyOfVector g =
      (polyOfBits (pre ++ y ++ post) * X ^ (w - 1)) %ₘ polyOfVector g) : x = y := by
  obtain ⟨monic, degree⟩ := polyOfVector_monic_degree hg
  have factor : polyOfBits (pre ++ x ++ post) * X ^ (w - 1) - polyOfBits (pre ++ y ++ post) * X ^ (w - 1) =
      (polyOfBits x - polyOfBits y) * X ^ (post.length + (w - 1)) := by
    simp only [polyOfBits_append, hlen, pow_add]
    ring
  have divides : polyOfVector g ∣ (polyOfBits x - polyOfBits y) * X ^ (post.length + (w - 1)) := by
    rw [← modByMonic_eq_zero_iff_dvd monic, ← factor, sub_modByMonic, h, sub_self]
  have small : (polyOfBits x - polyOfBits y).degree < (polyOfVector g).degree := by
    rw [degree]
    have degree_lt {z : List Bool} (hz : z.length ≤ w - 1) : (polyOfBits z).degree < (w - 1 : Nat) :=
      (polyOfBits_degree_lt z).trans_le (Nat.cast_le.2 hz)
    exact (degree_sub_le _ _).trans_lt (max_lt (degree_lt hshort) (degree_lt (hlen ▸ hshort)))
  have zero := eq_zero_of_dvd_of_degree_lt ((isCoprime_X_pow hone _).dvd_of_dvd_mul_right divides) small
  exact polyOfBits_injective hlen (sub_eq_zero.1 zero)

theorem crc_ne_of_burst {w : Nat} {g : BitVec w} {a b : Bytes} {k : Nat} (hw : 2 ≤ w) (hg : g.msb = true)
    (hone : g.getLsbD 0 = true) (hlen : a.length = b.length) (hne : a ≠ b)
    (hsame : ∀ j, j < k ∨ k + (w - 1) ≤ j → (bitstream a)[j]? = (bitstream b)[j]?) : crc w g a ≠ crc w g b := by
  intro h
  obtain ⟨pre, post, x, y, ha, hb, hxy, hshort⟩ := exists_window (bitstream_length_congr hlen) hsame
  have rem := congrArg polyOfVector h
  rw [polyOfVector_crc (by omega) hg, polyOfVector_crc (by omega) hg, ha, hb] at rem
  obtain rfl := remainder_ne_of_burst hg hone hxy hshort rem
  exact hne (bitstream_injective hlen (ha.trans hb.symm))

/-- Settles O14: a burst leaves no multiple of the generator, and one flipped bit is a burst for W = 2. -/
theorem checksDetectFlipsAndShortBursts : Obligations.ChecksDetectFlipsAndShortBursts := by
  refine ⟨fun a b k hk hlen hflip => ?_, fun w g a b k hw hg hone hlen hne hsame =>
    crc_ne_of_burst hw hg hone hlen hne hsame⟩
  have hne : a ≠ b := by
    rintro rfl
    exact (hflip k).1 rfl rfl
  rw [← crc_two_eq_parity, ← crc_two_eq_parity]
  exact crc_ne_of_burst (k := k) le_rfl (by decide) (by decide) hlen hne fun j hj => (hflip j).2 (by omega)

/-! ### The check byte and its commands -/

theorem exec_chkVerify_right {c : Byte} {d : Bytes} {s : State} (h : checkByte s.ctrl s.crccfg d = c) :
    exec (.chkVerify c d) s = finish (s, 1) := by
  simp only [exec, execChkVerify, verify, h, beq_self_eq_true, if_true]

theorem exec_chkVerify_wrong {c : Byte} {d : Bytes} {s : State} (h : checkByte s.ctrl s.crccfg d ≠ c) :
    exec (.chkVerify c d) s = finish (s, 0) := by
  simp only [exec, execChkVerify, verify, beq_false_of_ne h, Bool.false_eq_true, if_false]

theorem exec_chkCompute (d : Bytes) (s : State) :
    exec (.chkCompute d) s = finish (s, (checkByte s.ctrl s.crccfg d).setWidth 32) := rfl

/-- Two answers to the same command are the same answer. -/
theorem finish_eq_finish_iff (s : State) (v v' : Word) : finish (s, v) = finish (s, v') ↔ v = v' := by
  simp [finish, respond]

/-- Zero-extension to a word loses no bit of a check byte. -/
theorem setWidth_word_inj {a b : Byte} : a.setWidth 32 = b.setWidth 32 ↔ a = b := by
  constructor
  · intro h
    bv_omega
  · rintro rfl
    rfl

/-- Settles O12: the check value has W-1 bits, or one. -/
theorem checkByteStaysWithinItsWidth : Obligations.CheckByteStaysWithinItsWidth := by
  intro s bs c _
  have bound : (checkByte s.ctrl s.crccfg bs).toNat < (if s.ctrl[0] then 2 ^ (crcWidth s.crccfg - 1) else 2) := by
    rw [checkByte, crcSelected]
    split
    · rw [BitVec.toNat_setWidth]
      exact (Nat.mod_le _ _).trans_lt (BitVec.isLt _)
    · rw [BitVec.toNat_setWidth]
      exact (Nat.mod_le _ _).trans_lt (BitVec.isLt _)
  refine ⟨bound, fun hc => exec_chkVerify_wrong fun heq => ?_⟩
  rw [heq] at bound
  omega

/-- Settles O15: by CHK_KIND; a legal width of at most 9 leaves a check value that a byte holds. -/
theorem chkComputeAnswersTheCheckByte : Obligations.ChkComputeAnswersTheCheckByte := by
  intro d s
  have extend {n : Nat} (hn : n ≤ 8) (v : BitVec n) : (v.setWidth 8).setWidth 32 = v.setWidth 32 := by
    have hv : v.toNat < 2 ^ 8 := v.isLt.trans_le (Nat.pow_le_pow_right (by omega) hn)
    refine BitVec.eq_of_toNat_eq ?_
    rw [BitVec.toNat_setWidth, BitVec.toNat_setWidth, BitVec.toNat_setWidth, Nat.mod_eq_of_lt hv]
  refine ⟨fun hkind => ?_, fun hkind hlegal => ?_⟩
  · rw [exec_chkCompute, checkByte, crcSelected, hkind, if_neg Bool.false_ne_true, extend (by omega)]
    rfl
  · obtain ⟨-, -, hwidth, -⟩ := (crccfgLegal_iff_fields s.crccfg).1 hlegal
    rw [exec_chkCompute, checkByte, crcSelected, hkind, if_pos rfl, extend (by omega)]
    rfl

/-- Settles O16: both commands answer by the one check byte. -/
theorem chkVerifyComparesTheWholeCheckByte : Obligations.ChkVerifyComparesTheWholeCheckByte := by
  intro c d s
  have answer (r : Word) : exec (.chkCompute d) s = finish (s, r) ↔ (checkByte s.ctrl s.crccfg d).setWidth 32 = r := by
    rw [exec_chkCompute, finish_eq_finish_iff]
  refine ⟨exec_chkVerify_right, exec_chkVerify_wrong, ?_, fun r hr => ?_⟩
  · exact setWidth_word_inj.symm.trans (answer _).symm
  · obtain rfl := (answer r).1 hr
    by_cases heq : checkByte s.ctrl s.crccfg d = c
    · rw [if_pos (setWidth_word_inj.2 heq)]
      exact exec_chkVerify_right heq
    · rw [if_neg (mt setWidth_word_inj.1 heq)]
      exact exec_chkVerify_wrong heq

end Sys2Proof.Machine
end

section
/-! The Framer and SEND: sub-frames (R123), lengths of wire frames (R130), and what SEND transmits (R126, R171). -/

namespace Sys2Proof.Machine

/-! ### Sub-frames -/

/-- The slices of a byte string, put together, are the string, when the fuel suffices (R9). -/
theorem flatten_chunksFuel {m : Nat} (hm : 0 < m) {fuel : Nat} {bs : Bytes} (hfuel : bs.length ≤ fuel) :
    (chunksFuel m fuel bs).flatten = bs := by
  induction fuel generalizing bs with
  | zero => rw [List.eq_nil_of_length_eq_zero (Nat.le_zero.1 hfuel)]; rfl
  | succ fuel ih =>
    cases bs with
    | nil => rfl
    | cons b bs =>
      have enough : ((b :: bs).drop m).length ≤ fuel := by simp at hfuel ⊢; omega
      rw [chunksFuel, List.flatten_cons, ih enough, List.take_append_drop]

theorem length_le_of_mem_chunksFuel {m fuel : Nat} {bs c : Bytes} (hc : c ∈ chunksFuel m fuel bs) : c.length ≤ m := by
  induction fuel generalizing bs with
  | zero => simp [chunksFuel] at hc
  | succ fuel ih =>
    cases bs with
    | nil => simp [chunksFuel] at hc
    | cons b bs =>
      rw [chunksFuel, List.mem_cons] at hc
      rcases hc with rfl | hc
      · exact List.length_take_le _ _
      · exact ih hc

theorem chunksFuel_eq_nil_of_length_le {m fuel : Nat} {bs : Bytes} (h : bs.length ≤ m) :
    chunksFuel m fuel (bs.drop m) = [] := by
  rw [List.drop_eq_nil_of_le h]
  cases fuel <;> rfl

/-- A slice with another behind it has length M. -/
theorem length_eq_of_mem_dropLast_chunksFuel {m fuel : Nat} {bs c : Bytes}
    (hc : c ∈ (chunksFuel m fuel bs).dropLast) : c.length = m := by
  induction fuel generalizing bs with
  | zero => simp [chunksFuel] at hc
  | succ fuel ih =>
    cases bs with
    | nil => simp [chunksFuel] at hc
    | cons b bs =>
      rw [chunksFuel] at hc
      by_cases hlen : (b :: bs).length ≤ m
      · simp [chunksFuel_eq_nil_of_length_le hlen] at hc
      · by_cases hnil : chunksFuel m fuel ((b :: bs).drop m) = []
        · simp [hnil] at hc
        · rw [List.dropLast_cons_of_ne_nil hnil, List.mem_cons] at hc
          rcases hc with rfl | hc
          · exact List.length_take_of_le (le_of_not_ge hlen)
          · exact ih hc

theorem subframes_of_ne_nil {p : Bytes} (hp : p ≠ []) (m : Nat) : subframes p m = chunksFuel m p.length p := by
  rw [subframes, if_neg (by simpa using hp), chunks]

theorem flatten_subframes (p : Bytes) {m : Nat} (hm : 0 < m) : (subframes p m).flatten = p := by
  by_cases hp : p = []
  · subst hp
    rfl
  · rw [subframes_of_ne_nil hp, flatten_chunksFuel hm le_rfl]

/-- Parts of one length before a last one make up the whole. -/
theorem length_flatten_concat {m : Nat} {cs : List Bytes} {last : Bytes} (hcs : ∀ c ∈ cs, c.length = m) :
    (cs ++ [last]).flatten.length = cs.length * m + last.length := by
  have lengths : cs.map List.length = List.replicate cs.length m :=
    List.eq_replicate_iff.2 ⟨by simp, by simpa using hcs⟩
  simp [List.length_flatten, lengths]

/-- Settles O17: the slices but the last have length M, and the last is not empty, so their number is fixed. -/
theorem subframesPartitionThePayload : Obligations.SubframesPartitionThePayload := by
  intro p m hm
  refine ⟨flatten_subframes p hm, by rintro rfl; rfl, fun hp => ?_⟩
  have hflat := flatten_subframes p hm
  have hnil := nil_not_mem_subframes hp hm
  have hfull (c) (hc : c ∈ (subframes p m).dropLast) : c.length = m :=
    length_eq_of_mem_dropLast_chunksFuel (subframes_of_ne_nil hp m ▸ hc)
  have hle (c) (hc : c ∈ subframes p m) : c.length ≤ m :=
    length_le_of_mem_chunksFuel (subframes_of_ne_nil hp m ▸ hc)
  obtain hempty | ⟨cs, last, hcs⟩ := List.eq_nil_or_concat' (subframes p m)
  · rw [hempty] at hflat
    exact absurd hflat.symm hp
  · rw [hcs, List.dropLast_concat] at hfull
    rw [hcs] at hflat hnil hle ⊢
    have last_ne_nil : last ≠ [] := by rintro rfl; simp at hnil
    have last_pos : 0 < last.length := List.length_pos_of_ne_nil last_ne_nil
    have last_le : last.length ≤ m := hle last (by simp)
    have total : p.length = cs.length * m + last.length := by rw [← length_flatten_concat hfull, hflat]
    have ceil : p.length + m - 1 = (last.length - 1) + m * (cs.length + 1) := by
      rw [total, Nat.mul_succ, Nat.mul_comm]
      omega
    have count : (p.length + m - 1) / m = cs.length + 1 := by
      rw [ceil, Nat.add_mul_div_left _ _ hm, Nat.div_eq_of_lt (by omega), Nat.zero_add]
    refine ⟨by simp [count], by simpa using hfull, last, by simp, last_ne_nil, ?_⟩
    rw [count, Nat.add_sub_cancel, total]
    omega

/-! ### Wire frames -/

theorem stuff_length (ctrl tags : Word) (bs : Bytes) :
    (stuff ctrl tags bs).length = bs.length + bs.countP (inStuffSet ctrl tags) := by
  induction bs with
  | nil => rfl
  | cons b bs ih =>
    rw [stuff_cons, List.length_append, ih]
    by_cases hb : inStuffSet ctrl tags b = true
    · rw [List.countP_cons_of_pos hb, if_pos hb, List.length_cons, List.length_cons, List.length_cons, List.length_nil]
      omega
    · rw [List.countP_cons_of_neg hb, if_neg hb, List.length_cons, List.length_cons, List.length_nil]
      omega

/-- Settles O18: START and STOP around the stuffed content, which adds at most one byte for each. -/
theorem wireFrameLengthCountsStuffedBytes : Obligations.WireFrameLengthCountsStuffedBytes := by
  intro ctrl tags content
  have length : (wireFrame ctrl tags content).length =
      2 + content.length + content.countP (inStuffSet ctrl tags) := by
    simp only [wireFrame, List.length_append, List.length_singleton, stuff_length]
    omega
  have bound : content.countP (inStuffSet ctrl tags) ≤ content.length := List.countP_le_length
  exact ⟨length, by omega, by omega⟩

/-! ### SEND -/

theorem exec_send_plain {s : State} (harq : s.ctrl[1] = false) (d : Bytes) (now : Word) :
    exec (.send d now) s = .next { s with
      tx := s.tx ++ plainFrames s.ctrl s.tags s.maxframe s.crccfg d, resp := s.resp ++ [⟨.ok, 1⟩] } := by
  rw [exec, execSend, arqEnabled, harq, if_neg Bool.false_ne_true, transmitAll_eq]
  rfl

/-- Settles O20: the frames of `plainFrames`, in order. -/
theorem sendWithoutArqTransmitsEverySubframe : Obligations.SendWithoutArqTransmitsEverySubframe :=
  fun d now _ harq => exec_send_plain harq d now

theorem exec_send_idle {s : State} (harq : s.ctrl[1] = true) (hwait : s.wait = 0) (p : Bytes) (now : Word) :
    exec (.send p now) s = .next { s with
      tx := s.tx ++ [wireFrame s.ctrl s.tags (contentArq s.ctrl s.crccfg p s.sfn)]
      resend := wireFrame s.ctrl s.tags (contentArq s.ctrl s.crccfg p s.sfn), sentTs := now, wait := 1
      resp := s.resp ++ [⟨.ok, 1⟩] } := by
  rw [exec, execSend_arq harq, arqSend_idle p now hwait]
  rfl

/-- Settles O21: `arqSend` in Idle. -/
theorem arqSendFromIdleTransmitsAndStores : Obligations.ArqSendFromIdleTransmitsAndStores :=
  fun p now _ harq hwait => exec_send_idle harq hwait p now

/-! ### RX_PUSH -/

theorem exec_rxPush_fits {d : Bytes} {s : State}
    (h : withinCapacity s.rxbufCap (s.rxbuf.length + d.length) = true) :
    exec (.rxPush d) s = .next { s with
      rxbuf := s.rxbuf ++ d, resp := s.resp ++ [⟨.ok, BitVec.ofNat 32 d.length⟩] } := by
  rw [exec, execRxPush, if_pos h]
  rfl

theorem exec_rxPush_overflow {d : Bytes} {s : State}
    (h : withinCapacity s.rxbufCap (s.rxbuf.length + d.length) = false) :
    exec (.rxPush d) s = .next { s with resp := s.resp ++ [⟨.rxOverflow, 0⟩] } := by
  rw [exec, execRxPush, h]
  rfl

/-- A finite capacity that the bytes exceed. -/
theorem withinCapacity_eq_false {cap n : Nat} (h : cap < n) : withinCapacity (some cap) n = false :=
  decide_eq_false (not_le.2 h)

/-- Settles O23: the two sides of the capacity test. -/
theorem rxPushAppendsAllOrNothing : Obligations.RxPushAppendsAllOrNothing := by
  refine fun d s => ⟨fun hfits => exec_rxPush_fits ((withinCapacity_iff _ _).2 hfits), fun c hc hover => ?_⟩
  exact exec_rxPush_overflow (hc ▸ withinCapacity_eq_false hover)

end Sys2Proof.Machine
end

section
/-! Two ends of a link (R156, R182, R248, R250) and C6's examples: each DEFRAME by what its scan finds at the front of
RXBUF. -/

namespace Sys2Proof.Machine

/-! ### A DEFRAME on a wire frame -/

/-- A plain frame with its right check byte is delivered, and what follows it stays. -/
theorem exec_deframe_plain {s : State} (htags : tagsLegal s.tags = true) (harq : s.ctrl[1] = false) {data rest : Bytes}
    (hbuf : s.rxbuf = wireFrame s.ctrl s.tags (contentPlain s.ctrl s.crccfg data) ++ rest) :
    exec .deframe s = .next { s with
      rxbuf := rest, deliver := s.deliver ++ [data], event := s.event ++ [.frameDelivered]
      resp := s.resp ++ [⟨.ok, 0⟩] } := by
  have hscan := scanRecoversWireFrameContent s.ctrl s.tags (contentPlain s.ctrl s.crccfg data) rest htags
  rw [← hbuf] at hscan
  obtain ⟨-, content⟩ := plainFramesAreVerifiedAndDelivered s [] rest _ harq hscan
  obtain ⟨-, right⟩ := content data _ rfl
  rw [right rfl, List.append_nil]

theorem contentArq_eq (ctrl crccfg : Word) (p : Bytes) (n : BitVec 1) :
    contentArq ctrl crccfg p n = p ++ [seqByte n, checkByte ctrl crccfg (p ++ [seqByte n])] := by
  rw [contentArq, List.append_assoc, List.singleton_append]

/-- The two answers to an ARQ data frame with its right check byte, by its sequence number. -/
theorem exec_deframe_arq {s : State} (htags : tagsLegal s.tags = true) (harq : s.ctrl[1] = true) {p rest : Bytes}
    {n : BitVec 1} (hbuf : s.rxbuf = wireFrame s.ctrl s.tags (contentArq s.ctrl s.crccfg p n) ++ rest) :
    (n = s.erfn → exec .deframe s = .next { s with
      rxbuf := rest, erfn := s.erfn ^^^ 1, tx := s.tx ++ [ackFrame s.tags], deliver := s.deliver ++ [p]
      event := s.event ++ [.ackSent, .frameDelivered], resp := s.resp ++ [⟨.ok, 0⟩] }) ∧
    (n ≠ s.erfn → exec .deframe s = .next { s with
      rxbuf := rest, tx := s.tx ++ [ackFrame s.tags], event := s.event ++ [.ackSent]
      resp := s.resp ++ [⟨.ok, 3⟩] }) := by
  have hscan := scanRecoversWireFrameContent s.ctrl s.tags (contentArq s.ctrl s.crccfg p n) rest htags
  rw [← hbuf, contentArq_eq] at hscan
  have hack : p ++ [seqByte n, checkByte s.ctrl s.crccfg (p ++ [seqByte n])] ≠ [tagAck s.tags] := fun h => by
    simpa using congrArg List.length h
  obtain ⟨-, content⟩ := arqDataFramesAreAcknowledgedAndDeliveredInOrder s [] rest _ harq hack hscan
  obtain ⟨-, expected, unexpected⟩ := content p _ _ rfl
  have seqByte_injective : Function.Injective seqByte := by decide
  refine ⟨fun hn => ?_, fun hn => ?_⟩
  · rw [expected rfl (congrArg seqByte hn), List.append_nil]
    rfl
  · rw [unexpected rfl fun hseq => hn (seqByte_injective hseq), List.append_nil]
    rfl

/-- An acknowledgment while AwaitingAck returns the sender to Idle (R173). -/
theorem exec_deframe_ack {s : State} (htags : tagsLegal s.tags = true) (harq : s.ctrl[1] = true) (hwait : s.wait = 1)
    {rest : Bytes} (hbuf : s.rxbuf = ackFrame s.tags ++ rest) :
    exec .deframe s = .next { s with
      rxbuf := rest, wait := 0, sfn := s.sfn ^^^ 1, resend := [], event := s.event ++ [.ackReceived]
      resp := s.resp ++ [⟨.ok, 2⟩] } := by
  have hscan := scan_ackFrame htags rest
  rw [← hbuf] at hscan
  rw [acknowledgmentCompletesTheOutstandingFrame s [] rest harq hwait hscan, List.append_nil]

/-- On an empty buffer DEFRAME changes nothing. -/
theorem exec_deframe_empty {s : State} (hbuf : s.rxbuf = []) :
    exec .deframe s = .next { s with resp := s.resp ++ [⟨.ok, 1⟩] } :=
  execDeframe_partial (by rw [hbuf]; rfl)

theorem tagsLegal_of_configLegal {s : State} (h : configLegal s = true) : tagsLegal s.tags = true := by
  simp only [configLegal, Bool.and_eq_true] at h
  obtain ⟨⟨⟨-, tags⟩, -⟩, -⟩ := h
  exact tags

theorem maxFrameSize_pos_of_configLegal {s : State} (h : configLegal s = true) : 0 < maxFrameSize s.maxframe := by
  simp only [configLegal, maxframeLegal, Bool.and_eq_true, bne_iff_ne] at h
  obtain ⟨⟨-, -, positive⟩, -⟩ := h
  exact Nat.pos_of_ne_zero positive

/-! ### ARQ off -/

/-- As many DEFRAMEs as plain frames in RXBUF deliver their data in order. -/
theorem execAll_deframe_plain (cs : List Bytes) (s : State) (htags : tagsLegal s.tags = true)
    (harq : s.ctrl[1] = false)
    (hbuf : s.rxbuf = (cs.map fun c => wireFrame s.ctrl s.tags (contentPlain s.ctrl s.crccfg c)).flatten) :
    execAll (List.replicate cs.length .deframe) s = .next { s with
      rxbuf := [], deliver := s.deliver ++ cs
      event := s.event ++ List.replicate cs.length .frameDelivered
      resp := s.resp ++ List.replicate cs.length ⟨.ok, 0⟩ } := by
  induction cs generalizing s with
  | nil =>
    simp only [List.map_nil, List.flatten_nil] at hbuf
    simp [execAll, ← hbuf]
  | cons c cs ih =>
    refine (execAll_cons_of_exec (exec_deframe_plain htags harq hbuf) _).trans ((ih _ ?_ ?_ ?_).trans ?_)
    · exact htags
    · exact harq
    · rfl
    · simp [List.replicate_succ]

/-- Settles O35: SEND's frames stand in the buffer one behind the other. -/
theorem plainLinkDeliversEverySubframe : Obligations.PlainLinkDeliversEverySubframe := by
  intro a b u p now hlegal harq hctrl htags hcrc hsend hbuf
  obtain rfl := Host.Outcome.next.inj ((exec_send_plain harq p now).symm.trans hsend)
  have frames : b.rxbuf = ((subframes p (maxFrameSize a.maxframe)).map fun c =>
      wireFrame b.ctrl b.tags (contentPlain b.ctrl b.crccfg c)).flatten := by
    rw [hbuf, List.drop_left, hctrl, htags, hcrc]
    rfl
  refine ⟨_, execAll_deframe_plain _ b (htags ▸ tagsLegal_of_configLegal hlegal) (hctrl ▸ harq) frames, rfl,
    exec_deframe_empty rfl, flatten_subframes p (maxFrameSize_pos_of_configLegal hlegal)⟩

/-! ### ARQ on -/

/-- Settles O36: the frame is the expected one, and its acknowledgment meets a sender that waits. -/
theorem arqLinkDeliversAndAcknowledges : Obligations.ArqLinkDeliversAndAcknowledges := by
  intro a b u v p now hlegal harq hwait hctrl htags hcrc herfn hsend hbuf hdeframe
  have tags := tagsLegal_of_configLegal hlegal
  obtain rfl := Host.Outcome.next.inj ((exec_send_idle harq hwait p now).symm.trans hsend)
  have frame : b.rxbuf = wireFrame b.ctrl b.tags (contentArq b.ctrl b.crccfg p a.sfn) ++ [] := by
    rw [hbuf, List.drop_left, hctrl, htags, hcrc, List.flatten_singleton, List.append_nil]
  obtain ⟨expected, -⟩ := exec_deframe_arq (htags ▸ tags) (hctrl ▸ harq) frame
  obtain rfl := Host.Outcome.next.inj ((expected herfn.symm).symm.trans hdeframe)
  refine ⟨rfl, exec_deframe_ack (rest := []) ?_ ?_ ?_ ?_⟩
  · exact tags
  · exact harq
  · rfl
  · rw [List.drop_left, htags, List.flatten_singleton, List.append_nil]

end Sys2Proof.Machine
end

section
/-! Retransmission and the hazards of the link: the timer (R177 to R182), a stale acknowledgment (R248), C6's examples,
and a full buffer (R250). -/

namespace Sys2Proof.Machine

/-! ### The timer -/

/-- The modular elapsed time in naturals (R178). -/
theorem timedOut_iff (now sentTs timeout : Word) : timedOut now sentTs timeout = true ↔
    timeout.toNat < (now.toNat + 2 ^ 32 - sentTs.toNat) % 2 ^ 32 := by
  have hs := sentTs.isLt
  rw [timedOut, decide_eq_true_eq, BitVec.lt_def, BitVec.toNat_sub,
    show 2 ^ 32 - sentTs.toNat + now.toNat = now.toNat + 2 ^ 32 - sentTs.toNat by omega]

theorem exec_tick_expired {now : Word} {s : State} (harq : s.ctrl[1] = true) (hwait : s.wait = 1)
    (hout : timedOut now s.sentTs s.timeout = true) : exec (.tick now) s = .next { s with
      tx := s.tx ++ [s.resend], sentTs := now, event := s.event ++ [.timeoutRetransmit]
      resp := s.resp ++ [⟨.ok, 1⟩] } :=
  (exec_tick now s).trans (if_pos ⟨harq, hwait, hout⟩)

theorem exec_tick_idle {now : Word} {s : State}
    (h : ¬ (s.ctrl[1] = true ∧ s.wait = 1 ∧ timedOut now s.sentTs s.timeout = true)) :
    exec (.tick now) s = .next { s with resp := s.resp ++ [⟨.ok, 0⟩] } :=
  (exec_tick now s).trans (if_neg h)

/-- Settles O41: the two branches of TICK. -/
theorem tickRetransmitsExactlyAfterTimeout : Obligations.TickRetransmitsExactlyAfterTimeout := by
  refine fun now s => ⟨fun ⟨harq, hwait, hout⟩ => ?_, fun hnot => exec_tick_idle ?_⟩
  · exact exec_tick_expired harq hwait ((timedOut_iff ..).2 hout)
  · rw [timedOut_iff]
    rintro ⟨harq, hwait, hout⟩
    rcases hnot with h | h | h
    · simp [harq] at h
    · simp [hwait] at h
    · omega

/-- One past the timeout the timer has expired, unless TIMEOUT is its largest value. -/
theorem timedOut_succ {sentTs timeout : Word} (h : timeout ≠ 0xFFFFFFFF) :
    timedOut (sentTs + (timeout + 1)) sentTs timeout = true := by
  rw [timedOut, decide_eq_true_eq]
  bv_omega

/-- Settles O42: a TICK one past the timeout leaves a state from which the next one does the same. -/
theorem retransmissionHasNoCap : Obligations.RetransmissionHasNoCap := by
  intro n s harq hwait hmax
  induction n generalizing s with
  | zero => exact ⟨[], s, rfl, rfl, by simp⟩
  | succ n ih =>
    have htick := exec_tick_expired harq hwait (timedOut_succ hmax)
    obtain ⟨times, t, hlen, hrun, ht⟩ := ih { s with
      tx := s.tx ++ [s.resend], sentTs := s.sentTs + (s.timeout + 1), event := s.event ++ [.timeoutRetransmit]
      resp := s.resp ++ [⟨.ok, 1⟩] } harq hwait hmax
    refine ⟨(s.sentTs + (s.timeout + 1)) :: times, t, by simp [hlen], ?_, ?_⟩
    · exact (execAll_cons_of_exec htick _).trans hrun
    · rw [ht]
      simp [List.replicate_succ]

/-- Settles O37: the second copy comes after ERFN was inverted. -/
theorem retransmissionIsDeliveredOnlyOnce : Obligations.RetransmissionIsDeliveredOnlyOnce := by
  intro a b u v p now later hlegal harq hwait hout hctrl htags hcrc herfn hsend htick
  have tags : tagsLegal b.tags = true := htags ▸ tagsLegal_of_configLegal hlegal
  have on : b.ctrl[1] = true := hctrl ▸ harq
  obtain rfl := Host.Outcome.next.inj ((exec_send_idle harq hwait p now).symm.trans hsend)
  rw [exec_tick_expired ?on ?waits ?expired] at htick
  case on => exact harq
  case waits => rfl
  case expired => exact decide_eq_true hout
  obtain rfl := Host.Outcome.next.inj htick
  refine ⟨⟨_, rfl, by simp, rfl, rfl, rfl, rfl, rfl⟩, fun hbuf => ?_⟩
  have frames : b.rxbuf = wireFrame b.ctrl b.tags (contentArq b.ctrl b.crccfg p a.sfn) ++
      (wireFrame b.ctrl b.tags (contentArq b.ctrl b.crccfg p a.sfn) ++ []) := by
    rw [hbuf, List.append_assoc, List.drop_left, hctrl, htags, hcrc]
    rfl
  obtain ⟨expected, -⟩ := exec_deframe_arq tags on frames
  refine (execAll_cons_of_exec (expected herfn.symm) _).trans ?_
  obtain ⟨-, unexpected⟩ := exec_deframe_arq (s := { b with
    rxbuf := wireFrame b.ctrl b.tags (contentArq b.ctrl b.crccfg p a.sfn) ++ [], erfn := b.erfn ^^^ 1
    tx := b.tx ++ [ackFrame b.tags], deliver := b.deliver ++ [p], event := b.event ++ [.ackSent, .frameDelivered]
    resp := b.resp ++ [⟨.ok, 0⟩] }) tags on rfl
  have inverted : a.sfn ≠ b.erfn ^^^ 1 := by
    rw [herfn]
    rcases bit_eq_zero_or_one a.sfn with h | h <;> rw [h] <;> decide
  refine (execAll_cons_of_exec (unexpected inverted) _).trans ?_
  simp [execAll]

/-! ### A stale acknowledgment -/

/-- Settles O38: the second acknowledgment meets the next frame's AwaitingAck. -/
theorem staleAcknowledgmentLosesTheNextFrame : Obligations.StaleAcknowledgmentLosesTheNextFrame := by
  intro s p t1 t2 htags harq hwait hcap hbuf
  have first := exec_deframe_ack (rest := []) htags harq hwait (by rw [hbuf, List.append_nil])
  refine (execAll_cons_of_exec first _).trans ?_
  refine (execAll_cons_of_exec (exec_send_idle ?_ ?_ p t1) _).trans ?_
  · exact harq
  · rfl
  refine (execAll_cons_of_exec (exec_rxPush_fits ?_) _).trans ?_
  · exact hcap
  refine (execAll_cons_of_exec (exec_deframe_ack (rest := []) ?_ ?_ ?_ ?_) _).trans ?_
  · exact htags
  · exact harq
  · rfl
  · simp
  refine (execAll_cons_of_exec (exec_tick_idle ?_) _).trans ?_
  · simp
  simp [execAll, ackFrame]

/-! ### C6's examples -/

/-- The received frame of either example: its STOP ends an empty payload, whose check byte is the 00 before it, and the
two bytes behind it hold no START. -/
theorem execAll_deframe_flipped (ctrl : Word) (c : Byte) (harq : ctrl[1] = false)
    (hcheck : checkByte ctrl State.reset.crccfg [] = 0x00) (hc : c ≠ 0x7B) :
    execAll [.deframe, .deframe] { State.reset with ctrl := ctrl, rxbuf := [0x7B, 0x00, 0x7D, c, 0x7D] } =
      .next { State.reset with ctrl := ctrl, deliver := [[]], event := [.frameDelivered]
                               resp := [⟨.ok, 0⟩, ⟨.ok, 1⟩] } := by
  have hscan : scan State.reset.tags [0x7B, 0x00, 0x7D, c, 0x7D] = ⟨[], [c, 0x7D], some [0x00]⟩ := by rfl
  obtain ⟨-, content⟩ := plainFramesAreVerifiedAndDelivered
    { State.reset with ctrl := ctrl, rxbuf := [0x7B, 0x00, 0x7D, c, 0x7D] } _ _ _ harq hscan
  obtain ⟨-, delivered⟩ := content [] 0x00 rfl
  have no_start : tagStart State.reset.tags ∉ [c, 0x7D] := by
    have start : tagStart State.reset.tags = 0x7B := by decide
    rw [start, List.mem_cons, List.mem_singleton, not_or]
    exact ⟨hc.symm, by decide⟩
  refine (execAll_cons_of_exec (delivered hcheck) _).trans ?_
  have dropped := (seekingStartDiscardsEverythingBeforeStart { State.reset with
    ctrl := ctrl, deliver := [[]], event := [.frameDelivered], resp := [⟨.ok, 0⟩] } _ no_start).1
  exact (execAll_cons_of_exec dropped _).trans rfl

/-- Settles O39: SEND's frame by O20, and either received frame by its STOP. -/
theorem exampleFlipsIntoStopAreDeliveredUndetected : Obligations.ExampleFlipsIntoStopAreDeliveredUndetected := by
  intro ctrl f hf
  simp only [List.mem_cons, Prod.mk.injEq, List.not_mem_nil, or_false] at hf
  rcases hf with ⟨rfl, rfl⟩ | ⟨rfl, rfl⟩
  · have frames : plainFrames 0 State.reset.tags State.reset.maxframe State.reset.crccfg [0x00, 0x7C] =
        [[0x7B, 0x00, 0x7C, 0x01, 0x7D]] := by decide
    refine ⟨fun now => ?_, by decide, execAll_deframe_flipped 0 0x01 (by decide) (by decide) (by decide)⟩
    rw [exec_send_plain (by decide), frames]
    rfl
  · have frames : plainFrames 1 State.reset.tags State.reset.maxframe State.reset.crccfg [0x00, 0x7C] =
        [[0x7B, 0x00, 0x7C, 0x55, 0x7D]] := by decide +kernel
    refine ⟨fun now => ?_, by decide, execAll_deframe_flipped 1 0x55 (by decide) (by decide +kernel) (by decide)⟩
    rw [exec_send_plain (by decide), frames]
    rfl

/-! ### A full buffer -/

/-- Settles O40: DEFRAME leaves the partial frame, and no byte fits behind it. -/
theorem fullBufferWithPartialFrameIsStuck : Obligations.FullBufferWithPartialFrameIsStuck := by
  intro is
  induction is with
  | nil => exact fun s _ _ _ => by simp [execAll]
  | cons i is ih =>
    intro s hcap hpartial his
    rw [List.forall_mem_cons] at his
    obtain ⟨hi, his⟩ := his
    have answer : exec i s = .next { s with
        resp := s.resp ++ [if i = .deframe then ⟨.ok, 1⟩ else ⟨.rxOverflow, 0⟩] } := by
      rcases hi with rfl | ⟨b, d, rfl⟩
      · exact execDeframe_partial hpartial
      · exact exec_rxPush_overflow (hcap ▸ withinCapacity_eq_false (by simp))
    refine (execAll_cons_of_exec answer _).trans ((ih _ ?_ ?_ his).trans ?_)
    · exact hcap
    · exact hpartial
    · simp

end Sys2Proof.Machine
end

section
/-! REG_RD (R200), the resets (R240, R242), and the tables of codes (R221, R225). -/

namespace Sys2Proof.Machine

/-! ### REG_RD -/

theorem arqStatus_eq (sfn erfn wait : BitVec 1) :
    arqStatus sfn erfn wait = BitVec.ofNat 32 (4 * wait.toNat + 2 * erfn.toNat + sfn.toNat) := by
  revert sfn erfn wait
  decide

/-- Settles O43: the register of each number, and none from 0x09 on. -/
theorem regReadAnswersEveryRegister : Obligations.RegReadAnswersEveryRegister := by
  refine fun s => ⟨fun r v hr => ?_, fun r h9 => exec_regRd_unmapped ((regOf_eq_none_iff r).2 h9) s⟩
  rw [← arqStatus_eq] at hr
  simp only [List.mem_cons, Prod.mk.injEq, List.not_mem_nil, or_false] at hr
  rcases hr with ⟨rfl, rfl⟩ | ⟨rfl, rfl⟩ | ⟨rfl, rfl⟩ | ⟨rfl, rfl⟩ | ⟨rfl, rfl⟩ | ⟨rfl, rfl⟩ | ⟨rfl, rfl⟩ |
    ⟨rfl, rfl⟩ | ⟨rfl, rfl⟩
  · exact exec_regRd_mapped (reg := .ctrl) rfl s
  · exact exec_regRd_mapped (reg := .tags) rfl s
  · exact exec_regRd_mapped (reg := .maxframe) rfl s
  · exact exec_regRd_mapped (reg := .crccfg) rfl s
  · exact exec_regRd_mapped (reg := .timeout) rfl s
  · exact exec_regRd_mapped (reg := .sentts) rfl s
  · exact exec_regRd_mapped (reg := .rxlen) rfl s
  · exact exec_regRd_mapped (reg := .resendlen) rfl s
  · exact exec_regRd_mapped (reg := .arqstat) rfl s

/-! ### Power-on reset -/

/-- Settles O51: `powerOnReset` names every register, and REG_RD of the views reads the cleared link state. -/
theorem powerOnResetSetsEveryRegister : Obligations.PowerOnResetSetsEveryRegister := by
  refine ⟨fun s => rfl, rfl, fun r hr => ?_⟩
  simp only [List.mem_cons, List.not_mem_nil, or_false] at hr
  rcases hr with rfl | rfl | rfl | rfl
  · exact exec_regRd_mapped (reg := .arqstat) rfl State.reset
  · exact exec_regRd_mapped (reg := .sentts) rfl State.reset
  · exact exec_regRd_mapped (reg := .rxlen) rfl State.reset
  · exact exec_regRd_mapped (reg := .resendlen) rfl State.reset

/-! ### Codes -/

theorem exists_statusCode_iff (c : Byte) : (∃ st, statusCode st = c) ↔ c.toNat ≤ 0x04 := by
  constructor
  · rintro ⟨st, rfl⟩
    cases st <;> decide
  · intro hc
    obtain h | h | h | h | h : c = 0x00 ∨ c = 0x01 ∨ c = 0x02 ∨ c = 0x03 ∨ c = 0x04 := by bv_omega
    · exact ⟨.ok, h.symm⟩
    · exact ⟨.illegalCmd, h.symm⟩
    · exact ⟨.badReg, h.symm⟩
    · exact ⟨.badConfig, h.symm⟩
    · exact ⟨.rxOverflow, h.symm⟩

theorem eventCode_range (e : Event) : 0x01 ≤ (eventCode e).toNat ∧ (eventCode e).toNat ≤ 0x07 := by
  cases e with
  | frameDamaged why => cases why <;> decide
  | _ => decide

theorem exists_eventCode_iff (c : Byte) : (∃ e, eventCode e = c) ↔ 0x01 ≤ c.toNat ∧ c.toNat ≤ 0x07 := by
  constructor
  · rintro ⟨e, rfl⟩
    exact eventCode_range e
  · rintro ⟨hlo, hhi⟩
    obtain h | h | h | h | h | h | h : c = 0x01 ∨ c = 0x02 ∨ c = 0x03 ∨ c = 0x04 ∨ c = 0x05 ∨ c = 0x06 ∨ c = 0x07 := by
      bv_omega
    · exact ⟨.frameDelivered, h.symm⟩
    · exact ⟨.frameDamaged .check, h.symm⟩
    · exact ⟨.frameDamaged .short, h.symm⟩
    · exact ⟨.frameDamaged .resync, h.symm⟩
    · exact ⟨.ackSent, h.symm⟩
    · exact ⟨.ackReceived, h.symm⟩
    · exact ⟨.timeoutRetransmit, h.symm⟩

/-- Settles O60: the tables, and the codes that no row has. -/
theorem statusAndEventCodesFollowTheirTables : Obligations.StatusAndEventCodesFollowTheirTables :=
  ⟨⟨rfl, rfl, rfl, rfl, rfl, exists_statusCode_iff⟩, rfl, rfl, rfl, rfl, rfl, rfl, rfl, exists_eventCode_iff⟩

end Sys2Proof.Machine
end
